-- ==== Sys2Proof/Word.lean ====
section
/-! DEFINITION. The words and numbers of the Vorsel 2430: bytes, stamps and tags are bit vectors (they wrap or are
carried as bits); counts, unit numbers and times are plain numbers (spec/00_scope.md, Conventions). -/

namespace Sys2Proof

/-- One byte of a port message or of a line frame body (R97, R173). -/
abbrev Byte := BitVec 8

/-- A mains count. The manual holds it in 40 bits and treats it as unbounded (spec/00_scope.md, Mains count; R50). -/
abbrev Count := Nat

/-- A unit number: 0 none, 1 to 16,777,214 a unit or station, 16,777,215 all units (spec/00_scope.md, Unit numbers). -/
abbrev UnitNo := Nat

/-- A stamp, 0 to 65535, wrapping (R7). -/
abbrev Stamp := BitVec 16

/-- The tag of an exchange, 0 to 255, wrapping (R138). -/
abbrev Tag := BitVec 8

/-- A group number, 0 to 63 (R1). -/
abbrev GroupNo := Fin 64

/-- A moment of the part's own oscillator, in HALF microseconds since power-on, so that 1.5 E is a whole number for
every E (R41, R45; log 6). -/
abbrev Instant := Nat

end Sys2Proof
end

