-- ==== Sys2Proof/Config.lean ====
section
/-! DEFINITION. What the manual leaves to the part: the FREE VALUES. They have no body, so nothing can be proved about
which value they take; each is read at a counter that State holds (`choices`) and advances at every use. -/

namespace Sys2Proof

/-- The value b - 1 of a backoff of b = 1 to 8 slots: "chosen by the Transmitter at each collision. Any of the eight
values may follow any collision" (R115). Free value, log 11. -/
opaque Config.backoffChoice : Nat → Fin 8

/-- Which of two orders inside one step is taken, where a rule says that either may be taken first and the outcome
differs (R65; R79 with R159). Free value, log 12. -/
opaque Config.orderChoice : Nat → Bool

end Sys2Proof
end

