-- ==== Sys2Proof/Syntax.lean ====
section
/-! DEFINITION. The commands of the Vorsel 2430: one constructor of `Instr` for each row of spec/opcode_table.json.
A command is one step of the part, whole and indivisible (spec/95_what_each_step_holds.md). -/

namespace Sys2Proof

/-- The two station ports (spec/00_scope.md, Ports). -/
inductive Port where
  | A
  | B
  deriving DecidableEq, Repr

/-- The three phases on which frames are received (spec/00_scope.md, Phases). -/
inductive Phase where
  | L1
  | L2
  | L3
  deriving DecidableEq, Repr

/-- The grade of the carrier encoding, 1 to 3 (spec/00_scope.md, Grade). -/
inductive Grade where
  | g1
  | g2
  | g3
  deriving DecidableEq, Repr

/-- The 28 requests, in the order of the Requests table of the introduction, which is their numbering (R173). -/
inductive ReqKind where
  /-- SBASE Set Base (R15). -/
  | sbase
  /-- PUSHL Push Layer (R16). -/
  | pushl
  /-- DROPL Drop Layer (R18). -/
  | dropl
  /-- GOFF Deactivate Group (R19). -/
  | goff
  /-- GREAD Read Group (R20). -/
  | gread
  /-- GWAIT Read Group Settled (R21). -/
  | gwait
  /-- SCHED Schedule Change (R29). -/
  | sched
  /-- UNSCH Withdraw Change (R37). -/
  | unsch
  /-- SREAD Read Schedule (R39). -/
  | sread
  /-- TIME Read Mains Count (R53). -/
  | time
  /-- ORDER Issue Order (R71). -/
  | order
  /-- FENCE Place Fence (R74). -/
  | fence
  /-- CANCL Cancel Order (R76). -/
  | cancl
  /-- REFSH Refresh Group (R77). -/
  | refsh
  /-- RTAKE Take Report (R133). -/
  | rtake
  /-- RPIN Install Route (R166). -/
  | rpin
  /-- RFREE Release Route Pin (R167). -/
  | rfree
  /-- RFLSH Flush Learned Routes (R168). -/
  | rflsh
  /-- RREAD Read Route (R169). -/
  | rread
  /-- NFETCH Fetch Notice (R182). -/
  | nfetch
  /-- NMASK Set Notice Mask (R183). -/
  | nmask
  /-- CMASK Set Condition Mask (R178). -/
  | cmask
  /-- SNAP Read Condition State (R179). -/
  | snap
  /-- CCLR Clear Conditions (R180). -/
  | cclr
  /-- CONF Configure (R185). -/
  | conf
  /-- CREAD Read Configuration (R186). -/
  | cread
  /-- LRESET Line Reset (R188). -/
  | lreset
  /-- PRESET Port Reset (R187). -/
  | preset
  deriving DecidableEq, Repr

/-- The commands. A request row carries the port it comes through and its field bytes as R174 encodes them; it is the
request's arrival at its owner, and on an IDLE port the write that brings it there as well (log 3). A timer row is the
running out of that timer (R51; log 2). -/
inductive Instr where
  /-- POWER_ON_RESET (R189): the power-on reset input, up to its release. -/
  | powerOnReset
  /-- WRITE_TRANSACTION (R172, R175): the bytes after the transaction byte are one request message. -/
  | writeTransaction (p : Port) (bytes : List Byte)
  /-- READ_TRANSACTION (R172, R175): `n` bytes are clocked after the transaction byte. -/
  | readTransaction (p : Port) (n : Nat)
  /-- IGNORED_TRANSACTION (R172): a transaction whose first byte is neither 1 nor 2. -/
  | ignoredTransaction (p : Port) (byte : Byte)
  /-- SBASE Set Base (R15). Fields: [group, rate, relay set, level]. -/
  | sbase (p : Port) (fields : List Byte)
  /-- PUSHL Push Layer (R16). Fields: [group, class, rate, relay set, level, presence of expiry, expiry (5 bytes)]. -/
  | pushl (p : Port) (fields : List Byte)
  /-- DROPL Drop Layer (R18). Fields: [group, presence of class, class]. -/
  | dropl (p : Port) (fields : List Byte)
  /-- GOFF Deactivate Group (R19). Fields: [group]. -/
  | goff (p : Port) (fields : List Byte)
  /-- GREAD Read Group (R20). Fields: [group, presence of start layer, start layer]. -/
  | gread (p : Port) (fields : List Byte)
  /-- GWAIT Read Group Settled (R21). Fields: [group]. -/
  | gwait (p : Port) (fields : List Byte)
  /-- SCHED Schedule Change (R29). Fields: [group, activation (5 bytes), rate, relay set, level]. -/
  | sched (p : Port) (fields : List Byte)
  /-- UNSCH Withdraw Change (R37). Fields: [group, activation (5 bytes)]. -/
  | unsch (p : Port) (fields : List Byte)
  /-- SREAD Read Schedule (R39). Fields: [start index]. -/
  | sread (p : Port) (fields : List Byte)
  /-- TIME Read Mains Count (R53). Fields: []. -/
  | time (p : Port) (fields : List Byte)
  /-- ORDER Issue Order (R71). Fields: [unit (3 bytes), kind, presence of data, group, reference, presence of repeat count, repeat count]. -/
  | order (p : Port) (fields : List Byte)
  /-- FENCE Place Fence (R74). Fields: []. -/
  | fence (p : Port) (fields : List Byte)
  /-- CANCL Cancel Order (R76). Fields: [reference]. -/
  | cancl (p : Port) (fields : List Byte)
  /-- REFSH Refresh Group (R77). Fields: [group]. -/
  | refsh (p : Port) (fields : List Byte)
  /-- RTAKE Take Report (R133). Fields: []. -/
  | rtake (p : Port) (fields : List Byte)
  /-- RPIN Install Route (R166). Fields: [unit (3 bytes), number of relays, relays (3 bytes each), phase, grade]. -/
  | rpin (p : Port) (fields : List Byte)
  /-- RFREE Release Route Pin (R167). Fields: [unit (3 bytes)]. -/
  | rfree (p : Port) (fields : List Byte)
  /-- RFLSH Flush Learned Routes (R168). Fields: []. -/
  | rflsh (p : Port) (fields : List Byte)
  /-- RREAD Read Route (R169). Fields: [unit (3 bytes)]. -/
  | rread (p : Port) (fields : List Byte)
  /-- NFETCH Fetch Notice (R182). Fields: []. -/
  | nfetch (p : Port) (fields : List Byte)
  /-- NMASK Set Notice Mask (R183). Fields: 11 bytes, one for each notice kind in the order of R184. -/
  | nmask (p : Port) (fields : List Byte)
  /-- CMASK Set Condition Mask (R178). Fields: [RANGE, OVERFLOW, UNDERFLOW, PAST]. -/
  | cmask (p : Port) (fields : List Byte)
  /-- SNAP Read Condition State (R179). Fields: [option]. -/
  | snap (p : Port) (fields : List Byte)
  /-- CCLR Clear Conditions (R180). Fields: []. -/
  | cclr (p : Port) (fields : List Byte)
  /-- CONF Configure (R185). Fields: for each parameter named: its number, then its value (3 bytes for parameter 1, else 2). -/
  | conf (p : Port) (fields : List Byte)
  /-- CREAD Read Configuration (R186). Fields: []. -/
  | cread (p : Port) (fields : List Byte)
  /-- LRESET Line Reset (R188). Fields: []. -/
  | lreset (p : Port) (fields : List Byte)
  /-- PRESET Port Reset (R187). Fields: []. -/
  | preset (p : Port) (fields : List Byte)
  /-- GWAIT_LIMIT (R22): the limit count of the port's open GWAIT. -/
  | gwaitLimit (p : Port)
  /-- REAL_CROSSING (R42): an edge of the zero-crossing input, at `t` microseconds of the part's oscillator. -/
  | realCrossing (t : Nat)
  /-- SYNTHETIC_CROSSING (R45, R46): the synthetic due time arrives. -/
  | syntheticCrossing
  /-- LAYER_EXPIRY (R23) of the overrides of one group. -/
  | layerExpiry (g : GroupNo)
  /-- APPLICATION_OF_NEXT_STATED (R12) of one group. -/
  | applicationOfNextStated (g : GroupNo)
  /-- SCHEDULE_ACTIVATION (R34) of the entry of one group. -/
  | scheduleActivation (g : GroupNo)
  /-- OPENING_OF_REACH (R31) of every entry whose reach opens at this count, in list order. -/
  | openingOfReach
  /-- SETTLE_INTERVAL (R66) of the announcement entry at a place of the dispatch queue, counted from 1. -/
  | settleInterval (place : Nat)
  /-- REPEAT_SPACING (R89) of the announcement entry at a place of the dispatch queue, counted from 1. -/
  | repeatSpacing (place : Nat)
  /-- CLAIM (R109 to R111): the Line Arbiter judges the claims of the latest counted crossing. -/
  | claim
  /-- FRAME_WHOLE_END (R114): the end count of the frame on the line. -/
  | frameWholeEnd
  /-- COLLISION (R115): another sender's carrier is heard through the coupler of a phase. -/
  | collision (ph : Phase)
  /-- BACKOFF_END (R116). -/
  | backoffEnd
  /-- ANSWER_WINDOW (R144): the deadline of the exchange that holds a tag. -/
  | answerWindow (tag : Tag)
  /-- HOLD (R149): the hold-until of the exchange that holds a tag. -/
  | hold (tag : Tag)
  /-- PREAMBLE (R122): a preamble is detected on a phase; it tells the grade of the body. -/
  | preamble (ph : Phase) (grade : Grade)
  /-- BODY_BYTE (R124): a body byte arrives on a phase. -/
  | bodyByte (ph : Phase) (byte : Byte)
  /-- CARRIER_END (R122, R125): the carrier on a phase ends. -/
  | carrierEnd (ph : Phase)
  /-- FRAME_COMPLETION (R125): the crossing that closes the slot in which the carrier ended. -/
  | frameCompletion (ph : Phase)
  deriving DecidableEq, Repr

end Sys2Proof
end

