-- ==== Sys2Proof/Machine/State.lean ====
section
/-! DEFINITION. The state of the Vorsel 2430 as plain data: every table, list, queue, register, mark and pin the manual
gives it, block by block (spec/00_scope.md, Block overview), the queue of waiting commands, and `State.reset`. -/

namespace Sys2Proof.Machine

/-! ## Values -/

/-- A tariff setting: rate 1 to 8, a subset of the relay channels K1 (bit 0) to K4 (bit 3), level 0 to 9
(spec/00_scope.md, Tariff setting). A request may carry values outside the ranges (R14). -/
structure Setting where
  rate : Nat
  relays : BitVec 4
  level : Nat
  deriving DecidableEq, Repr

/-- One value for each port. -/
structure PerPort (α : Type) where
  a : α
  b : α
  deriving DecidableEq, Repr

/-- One value for each phase. -/
structure PerPhase (α : Type) where
  l1 : α
  l2 : α
  l3 : α
  deriving DecidableEq, Repr

/-! ## Time Base (R41) -/

/-- The mains state (R41). -/
inductive MainsState where
  | starting
  | present
  | lost
  deriving DecidableEq, Repr

/-- The kind of the reference point (R41). -/
inductive RefKind where
  | counted
  | realigning
  | synthetic
  deriving DecidableEq, Repr

/-- The kind of a counted crossing (R41, R50). -/
inductive CrossingKind where
  | real
  | synthetic
  deriving DecidableEq, Repr

/-- The state of the Time Base (R41). The period estimate E is the mean of `history` (`TimeBase.period`). -/
structure TimeBase where
  /-- the mains count -/
  count : Count
  state : MainsState
  /-- the 8 most recent consistent spacings in microseconds, oldest first -/
  history : List Nat
  reference : Option (Instant × RefKind)
  lastCounted : Option (Instant × CrossingKind)
  /-- the consistent run -/
  run : Nat
  /-- the synthetic due time -/
  due : Option Instant
  deriving DecidableEq, Repr

/-! ## Group Table (R1) -/

/-- The origin of a base layer (R3). -/
inductive LayerOrigin where
  | port (p : Port)
  | schedule
  deriving DecidableEq, Repr

/-- The class of an override (R3): 1, 2, 3. -/
inductive OverrideClass where
  | priceEvent
  | loadRelief
  | networkEmergency
  deriving DecidableEq, Repr

/-- The base layer (R3). -/
structure BaseLayer where
  setting : Setting
  origin : LayerOrigin
  deriving DecidableEq, Repr

/-- An override layer (R3). -/
structure Override where
  cls : OverrideClass
  setting : Setting
  origin : Port
  expiry : Option Count
  pushed : Count
  deriving DecidableEq, Repr

/-- The state and the layer list of a group: an INACTIVE group holds no layers, an ACTIVE group exactly one base layer
with the overrides above it, here top down (R2). -/
inductive Holding where
  | inactive
  | active (base : BaseLayer) (overrides : List Override)
  deriving DecidableEq, Repr

/-- The stated setting with its stamp (R6). -/
structure Stated where
  setting : Setting
  stamp : Stamp
  deriving DecidableEq, Repr

/-- Next stated (R6). -/
structure NextStated where
  setting : Setting
  stamp : Stamp
  activation : Count
  deriving DecidableEq, Repr

/-- A group record (R1). -/
structure GroupRec where
  holding : Holding
  stated : Option Stated
  next : Option NextStated
  stampCounter : Stamp
  due : Bool
  deriving DecidableEq, Repr

/-- An open GWAIT (R21): its group and its limit count. -/
structure Wait where
  group : GroupNo
  limit : Count
  deriving DecidableEq, Repr

/-! ## Schedule List (R27) -/

/-- The pre-announced mark (R28). -/
inductive Mark where
  | none
  | queued
  | completed
  deriving DecidableEq, Repr

/-- A schedule entry (R27). A QUEUED mark links it to the timed announcement entry of its group with its activation
(R70); a COMPLETED mark to the next stated of its group with its activation (R28; log 14). -/
structure SchedEntry where
  group : GroupNo
  activation : Count
  setting : Setting
  origin : Port
  mark : Mark
  deriving DecidableEq, Repr

/-! ## Dispatcher (R56 to R58, R81) -/

/-- The flavour of an announcement (R57). -/
inductive Flavour where
  | new
  | catchUp
  deriving DecidableEq, Repr

/-- An announcement entry (R57). -/
structure Ann where
  group : GroupNo
  content : Setting
  activation : Option Count
  flavour : Flavour
  stamp : Option Stamp
  started : Bool
  repeats : Nat
  done : Nat
  lastEnd : Option Count
  entryCount : Count
  origin : Option Port
  late : Bool
  deriving DecidableEq, Repr

/-- What an order asks, with its order data (R58): ASSIGN and QUERY name a group, TEST names none. -/
inductive OrderKind where
  | assign (g : GroupNo)
  | query (g : GroupNo)
  | test
  deriving DecidableEq, Repr

/-- An order entry (R58). -/
structure OrderEntry where
  unit : UnitNo
  kind : OrderKind
  port : Port
  reference : Byte
  deriving DecidableEq, Repr

/-- An entry of the dispatch queue (R56). -/
inductive Entry where
  | ann (a : Ann)
  | order (o : OrderEntry)
  | fence (p : Port)
  deriving DecidableEq, Repr

/-- The transmission in progress (R81). It names its entry by the entry's group: the queue never holds more than one
in-flight announcement entry for one group (R61; log 14). -/
structure Sending where
  group : GroupNo
  start : Count
  grade : Grade
  slots : Nat
  endCount : Count
  hop : Nat
  stamp : Stamp
  countdown : Nat
  deriving DecidableEq, Repr

/-- The state of the Dispatcher: the dispatch queue, head first (R56), the transmission in progress (R81) and the QUEUE
SPACE mark of each port (R72). -/
structure Dispatcher where
  queue : List Entry
  sending : Option Sending
  spaceMarks : PerPort Bool
  deriving DecidableEq, Repr

/-! ## Exchange Engine (R136, R137) -/

/-- The states of an exchange (R137). -/
inductive ExchState where
  | ready
  | sending
  | waiting
  | held
  deriving DecidableEq, Repr

/-- Retries remaining (R137). -/
inductive Retries where
  | limited (n : Nat)
  | unlimited
  deriving DecidableEq, Repr

/-- The attempt of an exchange (R137, R140). -/
structure Attempt where
  grade : Grade
  relays : Nat
  start : Count
  endCount : Count
  deriving DecidableEq, Repr

/-- An exchange record (R137). -/
structure Exchange where
  tag : Tag
  unit : UnitNo
  kind : OrderKind
  port : Port
  reference : Byte
  state : ExchState
  retries : Retries
  defers : Nat
  fallback : Nat
  attempt : Option Attempt
  attempts : Nat
  deadline : Option Count
  holdUntil : Option Count
  fenceMark : Bool
  cancelPending : Bool
  deriving DecidableEq, Repr

/-- The state of the Exchange Engine (R136): the exchange table in the order of the moves, the tag counter and the
ready order. -/
structure ExchangeEngine where
  table : List Exchange
  tagCounter : Tag
  ready : List Tag
  deriving DecidableEq, Repr

/-! ## Route Cache (R160) -/

/-- A route entry (R160). -/
structure Route where
  unit : UnitNo
  path : List UnitNo
  phase : Phase
  grade : Grade
  pinned : Bool
  written : Count
  deriving DecidableEq, Repr

/-- The state of the Route Cache (R160): 64 places and the last-used index. -/
structure RouteCache where
  places : Vector (Option Route) 64
  lastUsed : Option (Fin 64)
  deriving DecidableEq, Repr

/-! ## Line Arbiter and Transmitter (R107, R113) -/

/-- The holder of the Transmitter (R107). -/
inductive Holder where
  | none
  | receipt (unit : UnitNo) (number : Byte)
  | exchange (tag : Tag)
  | announcement (g : GroupNo)
  deriving DecidableEq, Repr

/-- The state of the Line Arbiter (R107). `busy` and `claimOpen` are the model's own: line activity since the latest
counted crossing (R108; log 16), and that its claims have not been judged yet (R110; log 10). -/
structure Arbiter where
  holder : Holder
  quiet : Bool
  busy : Bool
  claimOpen : Bool
  deriving DecidableEq, Repr

/-- The frame kinds of the line (R97), numbered 1 to 5. -/
inductive FrameKind where
  | announce
  | order
  | answer
  | report
  | receipt
  deriving DecidableEq, Repr

/-- Where a frame is sent: on one phase or on ALL (spec/00_scope.md, Phases). -/
inductive FramePhase where
  | one (ph : Phase)
  | all
  deriving DecidableEq, Repr

/-- The frame being sent (R113), with the body bytes it puts on the line (R97 to R101; log 22). -/
structure Frame where
  kind : FrameKind
  phase : FramePhase
  grade : Grade
  start : Count
  slots : Nat
  endCount : Count
  body : List Byte
  deriving DecidableEq, Repr

/-- The states of the Transmitter (R113). -/
inductive TxState where
  | dormant
  | idle
  | sending
  | backoff
  deriving DecidableEq, Repr

/-- The state of the Transmitter (R113). -/
structure Transmitter where
  state : TxState
  frame : Option Frame
  backoffEnd : Option Count
  deriving DecidableEq, Repr

/-! ## Receiver (R120, R121, R128) -/

/-- A frame being assembled (R121). -/
structure Assembly where
  bytes : List Byte
  phase : Phase
  grade : Grade
  maxBody : Nat
  station : UnitNo
  deriving DecidableEq, Repr

/-- A held event report (R121). -/
structure HeldReport where
  source : UnitNo
  number : Byte
  data : List Byte
  path : List UnitNo
  phase : Phase
  grade : Grade
  count : Count
  deriving DecidableEq, Repr

/-- A buffer of the receive pool (R121). -/
inductive Buffer where
  | free
  | assembling (f : Assembly)
  | held (r : HeldReport)
  deriving DecidableEq, Repr

/-- The receive state of a phase (R120, R122). `completes` is present once the carrier has ended: the count of the
crossing that closes the slot in which it ended (R125). -/
inductive PhaseState where
  | quiet
  | assembling (buffer : Fin 4) (completes : Option Count)
  | ignoring
  deriving DecidableEq, Repr

/-- A receipt (R128). -/
structure Receipt where
  unit : UnitNo
  number : Byte
  path : List UnitNo
  grade : Grade
  onLine : Bool
  deriving DecidableEq, Repr

/-- The state of the Receiver (R120). `heldOrder` lists the held buffers, oldest first (R130). Two fields are the model's
own: `again` marks a phase on which another carrier is heard behind a frame whose carrier has ended and which has not
completed (R108; log 17); `accepted` holds the bodies accepted at the latest counted crossing (R125; log 19). -/
structure Receiver where
  pool : Vector Buffer 4
  phases : PerPhase PhaseState
  again : PerPhase Bool
  heldOrder : List (Fin 4)
  receipts : List Receipt
  lost : Bool
  accepted : List (List Byte)
  deriving DecidableEq, Repr

/-! ## Configuration (R185) -/

/-- The twelve parameters, in their numbering (R185). -/
inductive ParamId where
  | station
  | broadcastGrade
  | broadcastHop
  | leadWindow
  | settleInterval
  | repeatSpacing
  | defaultRepeat
  | answerMargin
  | retryLimit
  | holdInterval
  | reportPort
  | maxBody
  deriving DecidableEq, Repr

/-- The configuration (R185). A retry limit of 7 is unlimited. -/
structure Params where
  station : UnitNo
  broadcastGrade : Grade
  broadcastHop : Nat
  leadWindow : Nat
  settleInterval : Nat
  repeatSpacing : Nat
  defaultRepeat : Nat
  answerMargin : Nat
  retryLimit : Nat
  holdInterval : Nat
  reportPort : Port
  maxBody : Nat
  deriving DecidableEq, Repr

/-! ## Notices (R184) -/

/-- The notice kinds, in their numbering 1 to 11 (R174, R184). -/
inductive NoticeKind where
  | announcementEnded
  | layerEnded
  | scheduleApplied
  | orderEnded
  | reportWaiting
  | receiveLost
  | mainsChange
  | lineReset
  | configChanged
  | queueSpace
  | overflow
  deriving DecidableEq, Repr

/-- A set of notice kinds: bit n - 1 is set when the kind numbered n is in the set (R174). -/
abbrev NoticeSet := BitVec 11

/-- The reason of an ANNOUNCEMENT ENDED notice (R95). -/
inductive EndReason where
  | completed
  | completedLate
  | superseded
  deriving DecidableEq, Repr

/-- The reason of a LAYER ENDED notice (R17, R23). -/
inductive LayerEnd where
  | evicted
  | expired
  deriving DecidableEq, Repr

/-- The five endings of an exchange (R155). -/
inductive Ending where
  | accepted
  | rejected
  | unreached
  | deferredOut
  | cancelled
  deriving DecidableEq, Repr

/-- The results of a QUERY comparison: FOREIGN, UNORDERED, MATCH (here `same`, since match is a word of Lean), BEHIND (R151). -/
inductive Comparison where
  | foreign
  | unordered
  | same
  | behind
  deriving DecidableEq, Repr

/-- The reply of an accepted QUERY, as the answer carried it: group (255 when none), setting, stamp (R100, R151). -/
structure Reply where
  group : Nat
  setting : Setting
  stamp : Stamp
  deriving DecidableEq, Repr

/-- The fields of an ORDER ENDED notice (R156). -/
structure OrderEnded where
  reference : Byte
  unit : UnitNo
  kind : OrderKind
  ending : Ending
  tag : Option Tag
  attempts : Nat
  lastGrade : Option Grade
  retries : Option Retries
  defers : Option Nat
  reply : Option Reply
  comparison : Option Comparison
  deriving DecidableEq, Repr

/-- The fields of an ANNOUNCEMENT ENDED notice (R95). -/
structure AnnEnded where
  reason : EndReason
  group : GroupNo
  flavour : Flavour
  content : Setting
  activation : Option Count
  stamp : Option Stamp
  done : Nat
  lastEnd : Option Count
  deriving DecidableEq, Repr

/-- A notice's own fields, by its kind (R184). -/
inductive NoticeBody where
  /-- R95, R96 -/
  | announcementEnded (n : AnnEnded)
  /-- R17, R23 -/
  | layerEnded (reason : LayerEnd) (g : GroupNo) (cls : OverrideClass) (setting : Setting)
  /-- R34 -/
  | scheduleApplied (g : GroupNo) (activation : Count) (setting : Setting) (mark : Mark)
  /-- R156 -/
  | orderEnded (n : OrderEnded)
  /-- R132 -/
  | reportWaiting (source : UnitNo) (number : Byte) (held : Nat)
  /-- R123 -/
  | receiveLost (ph : Phase) (count : Count)
  /-- R49 -/
  | mainsChange (left entered : MainsState) (count : Count)
  /-- R188 -/
  | lineReset (count : Count)
  /-- R185: each parameter named with its value before and after, in parameter number order -/
  | configChanged (changes : List (ParamId × Nat × Nat))
  /-- R72 -/
  | queueSpace
  /-- R181: the discard count, the kinds lost and the count of the last discard -/
  | overflow (discards : Nat) (lost : NoticeSet) (last : Count)
  deriving DecidableEq, Repr

/-- A notice (R181): the mains count at which it was queued, and its fields. -/
structure Notice where
  count : Count
  body : NoticeBody
  deriving DecidableEq, Repr

/-! ## Conditions, responses and the port controller (R171) -/

/-- The four conditions, numbered 1 to 4 (R173). -/
inductive Condition where
  | range
  | overflow
  | underflow
  | past
  deriving DecidableEq, Repr

/-- One flag for each condition: masked, or set (R171). -/
structure CondSet where
  range : Bool
  overflow : Bool
  underflow : Bool
  past : Bool
  deriving DecidableEq, Repr

/-- The last-condition record (R171, R177). -/
structure CondRecord where
  condition : Condition
  request : ReqKind
  group : GroupNo
  deriving DecidableEq, Repr

/-- The outcome words, numbered 0 to 7 (R173, R176). -/
inductive ReqOutcome where
  | done
  | adjusted
  | full
  | notFound
  | inactive
  | condition
  | wrongPort
  | malformed
  deriving DecidableEq, Repr

/-- A layer as GREAD returns it (R20). -/
inductive LayerReading where
  | base (l : BaseLayer)
  | override (l : Override)
  deriving DecidableEq, Repr

/-- The announcement state of a group (R20). -/
inductive AnnState where
  | none
  | queued
  | inFlight
  deriving DecidableEq, Repr

/-- A group record as GREAD and GWAIT return it (R20). -/
structure GroupReading where
  active : Bool
  layerCount : Nat
  layers : List LayerReading
  stated : Option Stated
  next : Option NextStated
  stampCounter : Stamp
  due : Bool
  annState : AnnState
  settled : Bool
  deriving DecidableEq, Repr

/-- A route as RREAD returns it (R169). -/
structure RouteReading where
  place : Fin 64
  route : Route
  lastUsed : Bool
  deriving DecidableEq, Repr

/-- The fields of a response, by the request answered (R173). -/
inductive ResponseBody where
  | empty
  /-- R20, R21 -/
  | group (r : GroupReading)
  /-- R39: the number of entries held, and up to 5 entries with their indices -/
  | schedule (held : Nat) (entries : List (Nat × SchedEntry))
  /-- R53 -/
  | time (count : Count) (state : MainsState) (period : Nat)
  /-- R133: the report, and the number still held -/
  | report (r : HeldReport) (remaining : Nat)
  /-- R166 -/
  | place (i : Fin 64)
  /-- R168: the entries removed and the pinned entries remaining -/
  | flushed (removed pinned : Nat)
  /-- R169: the entry if held, the number of entries held and the number pinned -/
  | route (r : Option RouteReading) (held pinned : Nat)
  /-- R182: the notice if any, and the number remaining -/
  | notice (n : Option Notice) (remaining : Nat)
  /-- R179 -/
  | conditions (mask summary : CondSet) (record : Option CondRecord) (overrun : Bool)
  /-- R186 -/
  | params (c : Params)
  deriving DecidableEq, Repr

/-- A response message (R173): the kind of the request answered (absent for a kind that is none of 1 to 28), the
outcome, the condition for CONDITION, and the fields. Its bytes are made when it is read (R174). -/
structure Response where
  kind : Option ReqKind
  outcome : ReqOutcome
  condition : Option Condition
  body : ResponseBody
  deriving DecidableEq, Repr

/-- The states of a port (R171). -/
inductive PortState where
  | idle
  | working
  | answered
  deriving DecidableEq, Repr

/-- A request a port has taken: its kind and its field bytes (R173). -/
structure Request where
  kind : ReqKind
  fields : List Byte
  deriving DecidableEq, Repr

/-- The state of a port controller (R171). `inHand` is the request taken whose owner has not acted yet (R175, R176;
log 3); `dataOut` is what the latest read transaction returned (R172; log 22). -/
structure PortCtl where
  state : PortState
  inHand : Option Request
  slot : Option Response
  overrun : Bool
  mask : CondSet
  summary : CondSet
  record : Option CondRecord
  notices : List Notice
  shedding : Bool
  noticeMask : NoticeSet
  attention : Bool
  dataOut : List Byte
  deriving DecidableEq, Repr

/-! ## The whole state -/

/-- The state of the part. `heldBack` is set from a line reset to the next counted crossing: until then the Schedule List
requests no pre-announcement (R40, R79). `pending` is the queue of commands, first in first out; `choices` counts the free
values used (log 11, log 12). -/
structure State where
  time : TimeBase
  groups : Vector GroupRec 64
  waits : PerPort (Option Wait)
  schedule : List SchedEntry
  heldBack : Bool
  disp : Dispatcher
  exch : ExchangeEngine
  routes : RouteCache
  arb : Arbiter
  tx : Transmitter
  rx : Receiver
  ports : PerPort PortCtl
  conf : Params
  choices : Nat
  pending : List Instr
  deriving DecidableEq, Repr

/-- The reasons for a fault: none. The manual gives the part no fault: what it cannot take it answers with an outcome
word (R176) or abandons (R124, R125). Nothing raises one; no step ends in one. -/
inductive Fault where
  deriving DecidableEq, Repr

/-- The reasons for a refusal. -/
inductive Refusal where
  /-- raised by `exec` for a command that has no meaning in the model yet; safe: the run stops where the part goes on -/
  | notModelled (mnemonic : String)
  deriving DecidableEq, Repr

/-! ## Reset values -/

/-- R25: a group record at power-on reset. -/
def GroupRec.reset : GroupRec :=
  { holding := .inactive, stated := none, next := none, stampCounter := 0, due := false }

/-- R171: a port controller at power-on reset. -/
def PortCtl.reset : PortCtl :=
  { state := .idle, inHand := none, slot := none, overrun := false
    mask := { range := true, overflow := true, underflow := true, past := true }
    summary := { range := false, overflow := false, underflow := false, past := false }
    record := none, notices := [], shedding := false, noticeMask := 0, attention := false, dataOut := [] }

/-- R185: the configuration at power-on reset. -/
def Params.reset : Params :=
  { station := 0, broadcastGrade := .g2, broadcastHop := 2, leadWindow := 30000, settleInterval := 50, repeatSpacing := 20
    defaultRepeat := 2, answerMargin := 8, retryLimit := 3, holdInterval := 200, reportPort := .A, maxBody := 64 }

/-- The part right after power-on reset (R25, R40, R41, R78, R81, R107, R113, R135, R158, R170, R171, R185, R189). The
model's own fields `heldBack`, `arb.busy`, `arb.claimOpen`, `rx.again`, `rx.accepted`, `choices` and `pending`: log 28. -/
def State.reset : State :=
  { time := { count := 0, state := .starting, history := [10000, 10000, 10000, 10000, 10000, 10000, 10000, 10000]
              reference := none, lastCounted := none, run := 0, due := none }
    groups := Vector.replicate 64 GroupRec.reset
    waits := { a := none, b := none }
    schedule := []
    heldBack := false
    disp := { queue := [], sending := none, spaceMarks := { a := false, b := false } }
    exch := { table := [], tagCounter := 0, ready := [] }
    routes := { places := Vector.replicate 64 none, lastUsed := none }
    arb := { holder := .none, quiet := false, busy := true, claimOpen := false }
    tx := { state := .dormant, frame := none, backoffEnd := none }
    rx := { pool := Vector.replicate 4 .free, phases := { l1 := .quiet, l2 := .quiet, l3 := .quiet }
            again := { l1 := false, l2 := false, l3 := false }, heldOrder := [], receipts := [], lost := false
            accepted := [] }
    ports := { a := PortCtl.reset, b := PortCtl.reset }
    conf := Params.reset
    choices := 0
    pending := [] }

/-! ## One setter for each block: every change of the state goes through these -/

/-- Replaces the Time Base. -/
def State.setTime (s : State) (x : TimeBase) : State := { s with time := x }

/-- Replaces the group records. -/
def State.setGroups (s : State) (x : Vector GroupRec 64) : State := { s with groups := x }

/-- Replaces the open GWAITs. -/
def State.setWaits (s : State) (x : PerPort (Option Wait)) : State := { s with waits := x }

/-- Replaces the Schedule List. -/
def State.setSchedule (s : State) (x : List SchedEntry) : State := { s with schedule := x }

/-- Replaces the mark of a line reset since the latest counted crossing. -/
def State.setHeldBack (s : State) (x : Bool) : State := { s with heldBack := x }

/-- Replaces the Dispatcher. -/
def State.setDisp (s : State) (x : Dispatcher) : State := { s with disp := x }

/-- Replaces the Exchange Engine. -/
def State.setExch (s : State) (x : ExchangeEngine) : State := { s with exch := x }

/-- Replaces the Route Cache. -/
def State.setRoutes (s : State) (x : RouteCache) : State := { s with routes := x }

/-- Replaces the Line Arbiter. -/
def State.setArb (s : State) (x : Arbiter) : State := { s with arb := x }

/-- Replaces the Transmitter. -/
def State.setTx (s : State) (x : Transmitter) : State := { s with tx := x }

/-- Replaces the Receiver. -/
def State.setRx (s : State) (x : Receiver) : State := { s with rx := x }

/-- Replaces the port controllers. -/
def State.setPorts (s : State) (x : PerPort PortCtl) : State := { s with ports := x }

/-- Replaces the configuration. -/
def State.setConf (s : State) (x : Params) : State := { s with conf := x }

/-- Replaces the counter of free values. -/
def State.setChoices (s : State) (x : Nat) : State := { s with choices := x }

/-- Replaces the command queue. -/
def State.setPending (s : State) (x : List Instr) : State := { s with pending := x }

/-- The value of a port. -/
def PerPort.get {α : Type} (v : PerPort α) : Port → α
  | .A => v.a
  | .B => v.b

/-- Replaces the value of a port. -/
def PerPort.set {α : Type} (v : PerPort α) (p : Port) (x : α) : PerPort α :=
  match p with
  | .A => { v with a := x }
  | .B => { v with b := x }

/-- The value of a phase. -/
def PerPhase.get {α : Type} (v : PerPhase α) : Phase → α
  | .L1 => v.l1
  | .L2 => v.l2
  | .L3 => v.l3

/-- Replaces the value of a phase. -/
def PerPhase.set {α : Type} (v : PerPhase α) (ph : Phase) (x : α) : PerPhase α :=
  match ph with
  | .L1 => { v with l1 := x }
  | .L2 => { v with l2 := x }
  | .L3 => { v with l3 := x }

end Sys2Proof.Machine
end

