-- ==== Sys2Proof/Decode.lean ====
section
/-! DEFINITION. From bytes to values: the command a table word spells, the request envelope (R173) and the fields of each
request (R174). Everything here is total; a message or a field list that does not fit answers `none`, which its reader
turns into MALFORMED. -/

namespace Sys2Proof

open Machine

/-- The command that a word spells by the bits of spec/opcode_table.json. No row of the table gives bits. -/
def decodeTableWord (_nbits _w : Nat) : Option Instr := none

/-! ## Bytes and numbers -/

/-- The `k` bytes of a number, most significant byte first (R97, R173). -/
def beBytes : Nat → Nat → List Byte
  | 0, _ => []
  | k + 1, v => BitVec.ofNat 8 (v / 256 ^ k) :: beBytes k v

/-- The number that bytes spell, most significant byte first (R97, R173). -/
def ofBE (bs : List Byte) : Nat := bs.foldl (fun v b => 256 * v + b.toNat) 0

/-! ## Kinds and the request envelope (R173) -/

/-- The number of a request kind, 1 to 28 (R173). -/
def ReqKind.code : ReqKind → Nat
  | .sbase => 1 | .pushl => 2 | .dropl => 3 | .goff => 4 | .gread => 5 | .gwait => 6 | .sched => 7
  | .unsch => 8 | .sread => 9 | .time => 10 | .order => 11 | .fence => 12 | .cancl => 13 | .refsh => 14
  | .rtake => 15 | .rpin => 16 | .rfree => 17 | .rflsh => 18 | .rread => 19 | .nfetch => 20 | .nmask => 21
  | .cmask => 22 | .snap => 23 | .cclr => 24 | .conf => 25 | .cread => 26 | .lreset => 27 | .preset => 28

/-- The 28 request kinds in their numbering (R173). -/
def allReqKinds : List ReqKind :=
  [.sbase, .pushl, .dropl, .goff, .gread, .gwait, .sched, .unsch, .sread, .time, .order, .fence, .cancl, .refsh,
   .rtake, .rpin, .rfree, .rflsh, .rread, .nfetch, .nmask, .cmask, .snap, .cclr, .conf, .cread, .lreset, .preset]

/-- The request kind a kind byte names, if it is 1 to 28 (R173). -/
def reqKindOf (b : Byte) : Option ReqKind := if b.toNat = 0 then none else allReqKinds[b.toNat - 1]?

/-- The request kind a message begins with, if it has one. -/
def messageKind : List Byte → Option ReqKind
  | [] => none
  | k :: _ => reqKindOf k

/-- R173: the request a message carries, unless the port controller refuses it: the kind is 1 to 28, the number of bytes
after the transaction byte is L + 2, L is at most 70 and the message at most 72 bytes. -/
def openEnvelope : List Byte → Option Request
  | k :: l :: fields =>
    match reqKindOf k with
    | some kind =>
      if fields.length = l.toNat ∧ l.toNat ≤ 70 ∧ fields.length + 2 ≤ 72 then some { kind := kind, fields := fields } else none
    | none => none
  | _ => none

/-! ## Values in fields (R174) -/

/-- A group number byte: 0 to 63 (R13). -/
def groupOf (b : Byte) : Option GroupNo := if h : b.toNat < 64 then some ⟨b.toNat, h⟩ else none

/-- A class byte: 1 to 3 (R3, R13). -/
def classOf (b : Byte) : Option OverrideClass :=
  match b.toNat with
  | 1 => some .priceEvent
  | 2 => some .loadRelief
  | 3 => some .networkEmergency
  | _ => none

/-- The three bytes of a tariff setting (R100, R174). Bits 7 to 4 of the relay set byte are ignored (log 21). -/
def settingOf (rate relays level : Byte) : Setting :=
  { rate := rate.toNat, relays := relays.setWidth 4, level := level.toNat }

/-- A phase code: 1 L1, 2 L2, 3 L3 (R174). -/
def phaseOf (b : Byte) : Option Phase :=
  match b.toNat with
  | 1 => some .L1
  | 2 => some .L2
  | 3 => some .L3
  | _ => none

/-- A grade number: 1 to 3. -/
def gradeOf (n : Nat) : Option Grade :=
  match n with
  | 1 => some .g1
  | 2 => some .g2
  | 3 => some .g3
  | _ => none

/-- A flag byte: 1 masked, set or yes; 0 the other; any other value is not one the encoding gives (R174). -/
def flagOf (b : Byte) : Option Bool :=
  match b.toNat with
  | 0 => some false
  | 1 => some true
  | _ => none

/-- A unit number that one unit or station can bear: 1 to 16,777,214 (spec/00_scope.md, Unit numbers). -/
def unitValid (u : UnitNo) : Bool := decide (1 ≤ u) && decide (u ≤ 16777214)

/-! ## The fields of each request (R174). `none` is MALFORMED -/

/-- SBASE (group, setting). -/
def readSbase : List Byte → Option (GroupNo × Setting)
  | [g, r, k, l] => (groupOf g).map fun g => (g, settingOf r k l)
  | _ => none

/-- The fields of a PUSHL. -/
structure PushFields where
  group : GroupNo
  cls : OverrideClass
  setting : Setting
  expiry : Option Count
  deriving DecidableEq, Repr

/-- PUSHL (group, class, setting, expiry optional). -/
def readPushl : List Byte → Option PushFields
  | [g, c, r, k, l, pr] =>
    match groupOf g, classOf c, flagOf pr with
    | some g, some c, some false => some { group := g, cls := c, setting := settingOf r k l, expiry := none }
    | _, _, _ => none
  | [g, c, r, k, l, pr, e4, e3, e2, e1, e0] =>
    match groupOf g, classOf c, flagOf pr with
    | some g, some c, some true =>
      some { group := g, cls := c, setting := settingOf r k l, expiry := some (ofBE [e4, e3, e2, e1, e0]) }
    | _, _, _ => none
  | _ => none

/-- DROPL (group, class optional). -/
def readDropl : List Byte → Option (GroupNo × Option OverrideClass)
  | [g, pr] =>
    match groupOf g, flagOf pr with
    | some g, some false => some (g, none)
    | _, _ => none
  | [g, pr, c] =>
    match groupOf g, flagOf pr, classOf c with
    | some g, some true, some c => some (g, some c)
    | _, _, _ => none
  | _ => none

/-- A group alone: GOFF, GWAIT, REFSH. -/
def readGroupOnly : List Byte → Option GroupNo
  | [g] => groupOf g
  | _ => none

/-- GREAD (group, start layer optional): an absent start layer is 0 (R20). -/
def readGread : List Byte → Option (GroupNo × Nat)
  | [g, pr] =>
    match groupOf g, flagOf pr with
    | some g, some false => some (g, 0)
    | _, _ => none
  | [g, pr, n] =>
    match groupOf g, flagOf pr with
    | some g, some true => some (g, n.toNat)
    | _, _ => none
  | _ => none

/-- SCHED (group, activation count, setting). -/
def readSched : List Byte → Option (GroupNo × Count × Setting)
  | [g, a4, a3, a2, a1, a0, r, k, l] => (groupOf g).map fun g => (g, ofBE [a4, a3, a2, a1, a0], settingOf r k l)
  | _ => none

/-- UNSCH (group, activation count). -/
def readUnsch : List Byte → Option (GroupNo × Count)
  | [g, a4, a3, a2, a1, a0] => (groupOf g).map fun g => (g, ofBE [a4, a3, a2, a1, a0])
  | _ => none

/-- One byte: SREAD's start index, CANCL's reference. -/
def readByte : List Byte → Option Byte
  | [b] => some b
  | _ => none

/-- No fields. -/
def readNothing : List Byte → Option Unit
  | [] => some ()
  | _ => none

/-- The fields of an ORDER: the order and the repeat count if given. -/
structure OrderFields where
  unit : UnitNo
  kind : OrderKind
  reference : Byte
  repeats : Option Nat
  deriving DecidableEq, Repr

/-- The order a kind code and its order data name: 1 ASSIGN, 2 QUERY, 3 TEST (R100). ASSIGN and QUERY need a group 0 to
63; order data given with a TEST is ignored (R71). -/
def orderKindOf (k : Byte) (data : Option Byte) : Option OrderKind :=
  match k.toNat with
  | 1 => (data.bind groupOf).map .assign
  | 2 => (data.bind groupOf).map .query
  | 3 => some .test
  | _ => none

/-- An optional byte at the front of the fields: its presence byte, then the byte (R174). -/
def readOptByte : List Byte → Option (Option Byte × List Byte)
  | pr :: rest =>
    match flagOf pr, rest with
    | some false, _ => some (none, rest)
    | some true, b :: rest' => some (some b, rest')
    | _, _ => none
  | [] => none

/-- The fields of an ORDER after the unit number and the kind: order data, reference, repeat count optional (R71). -/
def readOrderTail (fields : List Byte) : Option (Option Byte × Byte × Option Byte) :=
  match readOptByte fields with
  | some (data, ref :: rest) =>
    match readOptByte rest with
    | some (reps, []) => some (data, ref, reps)
    | _ => none
  | _ => none

/-- ORDER (unit number, order kind, order data, order reference, repeat count optional), with R71's MALFORMED tests. -/
def readOrder : List Byte → Option OrderFields
  | u2 :: u1 :: u0 :: k :: rest =>
    match readOrderTail rest with
    | some (data, ref, reps) =>
      match orderKindOf k data with
      | some kind =>
        if unitValid (ofBE [u2, u1, u0]) then
          some { unit := ofBE [u2, u1, u0], kind := kind, reference := ref, repeats := reps.map BitVec.toNat }
        else none
      | none => none
    | none => none
  | _ => none

/-- The fields of an RPIN. -/
structure PinFields where
  unit : UnitNo
  path : List UnitNo
  phase : Phase
  grade : Grade
  deriving DecidableEq, Repr

/-- A relay path, its phase and its grade, at the end of the fields: the number of relays (at most 3), then the unit
numbers in order, then phase and grade (R166, R174). -/
def readPath : List Byte → Option (List UnitNo × Byte × Byte)
  | [n, ph, g] => if n.toNat = 0 then some ([], ph, g) else none
  | [n, a2, a1, a0, ph, g] => if n.toNat = 1 then some ([ofBE [a2, a1, a0]], ph, g) else none
  | [n, a2, a1, a0, b2, b1, b0, ph, g] =>
    if n.toNat = 2 then some ([ofBE [a2, a1, a0], ofBE [b2, b1, b0]], ph, g) else none
  | [n, a2, a1, a0, b2, b1, b0, c2, c1, c0, ph, g] =>
    if n.toNat = 3 then some ([ofBE [a2, a1, a0], ofBE [b2, b1, b0], ofBE [c2, c1, c0]], ph, g) else none
  | _ => none

/-- RPIN (unit number, relay path, phase, grade), with R166's MALFORMED tests. -/
def readRpin : List Byte → Option PinFields
  | u2 :: u1 :: u0 :: rest =>
    match readPath rest with
    | some (path, ph, g) =>
      match phaseOf ph, gradeOf g.toNat with
      | some ph, some g =>
        if unitValid (ofBE [u2, u1, u0]) ∧ path.all unitValid then
          some { unit := ofBE [u2, u1, u0], path := path, phase := ph, grade := g }
        else none
      | _, _ => none
    | none => none
  | _ => none

/-- A unit number alone: RFREE, RREAD. -/
def readUnit : List Byte → Option UnitNo
  | [u2, u1, u0] => some (ofBE [u2, u1, u0])
  | _ => none

/-- The flags of a list of flag bytes, none if one is not a flag. -/
def readFlags : List Byte → Option (List Bool)
  | [] => some []
  | b :: bs =>
    match flagOf b, readFlags bs with
    | some f, some fs => some (f :: fs)
    | _, _ => none

/-- The notice mask whose flags are given in the order of R184: bit n - 1 for the kind numbered n. -/
def noticeSetOf : List Bool → NoticeSet
  | [] => 0
  | f :: fs => (noticeSetOf fs <<< 1) ||| (if f then 1 else 0)

/-- NMASK: 11 flag bytes (R183). -/
def readNmask (fields : List Byte) : Option NoticeSet :=
  match readFlags fields with
  | some fs => if fs.length = 11 then some (noticeSetOf fs) else none
  | none => none

/-- CMASK (RANGE, OVERFLOW, UNDERFLOW, PAST): 4 flag bytes (R178). -/
def readCmask : List Byte → Option CondSet
  | [r, o, u, p] =>
    match flagOf r, flagOf o, flagOf u, flagOf p with
    | some r, some o, some u, some p => some { range := r, overflow := o, underflow := u, past := p }
    | _, _, _, _ => none
  | _ => none

/-- SNAP: its option is one byte, 1 when given and 0 when not (R174). -/
def readSnap : List Byte → Option Bool
  | [b] => flagOf b
  | _ => none

/-- The parameter a number names, 1 to 12 (R174, R185). -/
def paramOf (b : Byte) : Option ParamId :=
  match b.toNat with
  | 1 => some .station
  | 2 => some .broadcastGrade
  | 3 => some .broadcastHop
  | 4 => some .leadWindow
  | 5 => some .settleInterval
  | 6 => some .repeatSpacing
  | 7 => some .defaultRepeat
  | 8 => some .answerMargin
  | 9 => some .retryLimit
  | 10 => some .holdInterval
  | 11 => some .reportPort
  | 12 => some .maxBody
  | _ => none

/-- A parameter CONF names, with the value given: "3 bytes for the station unit number and 2 bytes for each other
parameter" (R174). -/
abbrev Named := ParamId × Nat

/-- The named parameters of a CONF, in the order written. -/
def readNamed : List Byte → Option (List Named)
  | [] => some []
  | n :: a :: b :: rest =>
    match paramOf n with
    | none => none
    | some .station =>
      match rest with
      | c :: rest' => (readNamed rest').map ((ParamId.station, ofBE [a, b, c]) :: ·)
      | [] => none
    | some q => (readNamed rest).map ((q, ofBE [a, b]) :: ·)
  | _ => none

/-- A report port value is 1 (A) or 2 (B) (R174). -/
def namedValid (n : Named) : Bool :=
  match n with
  | (.reportPort, v) => decide (v = 1) || decide (v = 2)
  | _ => true

/-- CONF, with R185's MALFORMED tests: it names no parameter, one parameter twice, or a report port that is neither A
nor B. -/
def readConf (fields : List Byte) : Option (List Named) :=
  match readNamed fields with
  | some ns => if ns ≠ [] ∧ (ns.map Prod.fst).Nodup ∧ ns.all namedValid then some ns else none
  | none => none

end Sys2Proof
end

