-- ==== Sys2Proof/Machine/Operands.lean ====
section
/-! DEFINITION. Values the commands are made of: grades and slot counts (R54, R55), settings and their range (R14), layers
and their rank (R4), configuration parameters (R185). -/

namespace Sys2Proof.Machine

/-! ## Grades and slots -/

/-- The number of a grade, 1 to 3. -/
def gradeNo : Grade → Nat
  | .g1 => 1
  | .g2 => 2
  | .g3 => 3

/-- A grade raised by a number of steps, to at most 3 (R112, R140). -/
def raiseGrade (g : Grade) (steps : Nat) : Grade :=
  match gradeNo g + steps with
  | 0 => .g1
  | 1 => .g1
  | 2 => .g2
  | _ => .g3

/-- The body bytes one slot carries at a grade: 12, 4, 1 (R54). -/
def bytesPerSlot : Grade → Nat
  | .g1 => 12
  | .g2 => 4
  | .g3 => 1

/-- R54: the slots of a frame with a body of `b` bytes: 2 plus the smallest whole number not less than b divided by the
bytes per slot. -/
def slotsOf (b : Nat) (g : Grade) : Nat := 2 + (b + bytesPerSlot g - 1) / bytesPerSlot g

/-- The body of an ANNOUNCE (R54). -/
def announceBody : Nat := 18

/-- The body of an ORDER frame of `h` relays (R54): 13 + 3h for ASSIGN, 12 + 3h for QUERY and TEST. -/
def orderBody (k : OrderKind) (h : Nat) : Nat :=
  match k with
  | .assign _ => 13 + 3 * h
  | .query _ => 12 + 3 * h
  | .test => 12 + 3 * h

/-- The body of the answer expected (R54, R143): the accepted-QUERY form for QUERY, else the 2-byte form. -/
def answerBody (k : OrderKind) (h : Nat) : Nat :=
  match k with
  | .assign _ => 12 + 3 * h
  | .query _ => 18 + 3 * h
  | .test => 12 + 3 * h

/-- The body of a RECEIPT of `h` relays (R54). -/
def receiptBody (h : Nat) : Nat := 11 + 3 * h

/-- S of an ANNOUNCE at a grade: 4, 7, 20 (R31, R55). -/
def announceSlots (g : Grade) : Nat := slotsOf announceBody g

/-- R143: the answer window W of an attempt with `h` relays at a grade, and answer margin `m`. -/
def answerWindowOf (k : OrderKind) (g : Grade) (h m : Nat) : Nat :=
  h * (slotsOf (orderBody k h) g + 2) + 4 + (h + 1) * slotsOf (answerBody k h) g + 2 * h + m

/-! ## Settings (R14) -/

/-- R14: the setting raises no RANGE: rate 1 to 8 and level 0 to 9. -/
def Setting.inRange (st : Setting) : Bool := decide (1 ≤ st.rate) && decide (st.rate ≤ 8) && decide (st.level ≤ 9)

/-- R14: a rate of 0 becomes 1, a rate above 8 becomes 8, a level above 9 becomes 9. -/
def Setting.clamp (st : Setting) : Setting :=
  { rate := if st.rate = 0 then 1 else if 8 < st.rate then 8 else st.rate
    relays := st.relays
    level := if 9 < st.level then 9 else st.level }

/-! ## Layers (R3 to R5) -/

/-- The number of a class, 1 to 3 (R3). -/
def classNo : OverrideClass → Nat
  | .priceEvent => 1
  | .loadRelief => 2
  | .networkEmergency => 3

/-- R4: a new override goes directly above every layer of its class or lower. The list runs top down. -/
def insertOverride (o : Override) : List Override → List Override
  | [] => [o]
  | x :: xs => if classNo o.cls < classNo x.cls then x :: insertOverride o xs else o :: x :: xs

/-- Removes the first member of a list that satisfies a test; the others keep their order. -/
def removeFirst {α : Type} (f : α → Bool) : List α → List α
  | [] => []
  | x :: xs => if f x then xs else x :: removeFirst f xs

/-- The layers top down: the overrides, then the base layer (R2). -/
def layersOf : Holding → List LayerReading
  | .inactive => []
  | .active b os => os.map .override ++ [.base b]

/-- R5: the effective setting, the setting of the top layer. -/
def effectiveOf : Holding → Option Setting
  | .inactive => none
  | .active b [] => some b.setting
  | .active _ (o :: _) => some o.setting

/-- R5: the origin of an announcement requested for the group: the port of the top layer, none for SCHEDULE. -/
def topOrigin : Holding → Option Port
  | .inactive => none
  | .active b [] =>
    match b.origin with
    | .port p => some p
    | .schedule => none
  | .active _ (o :: _) => some o.origin

/-- The group has a base layer on top (R32). -/
def baseOnTop : Holding → Bool
  | .active _ [] => true
  | _ => false

/-- The group is ACTIVE. -/
def isActive : Holding → Bool
  | .inactive => false
  | .active _ _ => true

/-! ## Ports -/

/-- The other port. -/
def otherPort : Port → Port
  | .A => .B
  | .B => .A

/-! ## Configuration parameters (R185) -/

/-- A number held within a range (R185). -/
def clampTo (lo hi v : Nat) : Nat := if v < lo then lo else if hi < v then hi else v

/-- The value R185 sets for a value given: clamped to the nearer end of the parameter's range. -/
def clampParam (q : ParamId) (v : Nat) : Nat :=
  match q with
  | .station => clampTo 0 16777214 v
  | .broadcastGrade => clampTo 1 3 v
  | .broadcastHop => clampTo 0 3 v
  | .leadWindow => clampTo 0 65535 v
  | .settleInterval => clampTo 0 255 v
  | .repeatSpacing => clampTo 1 255 v
  | .defaultRepeat => clampTo 0 15 v
  | .answerMargin => clampTo 0 63 v
  | .retryLimit => clampTo 0 7 v
  | .holdInterval => clampTo 8 1023 v
  | .reportPort => v
  | .maxBody => clampTo 24 64 v

/-- The number of a port as a parameter value: 1 A, 2 B (R174). -/
def portNo : Port → Nat
  | .A => 1
  | .B => 2

/-- The value of a parameter as a number (R174). -/
def Params.value (c : Params) : ParamId → Nat
  | .station => c.station
  | .broadcastGrade => gradeNo c.broadcastGrade
  | .broadcastHop => c.broadcastHop
  | .leadWindow => c.leadWindow
  | .settleInterval => c.settleInterval
  | .repeatSpacing => c.repeatSpacing
  | .defaultRepeat => c.defaultRepeat
  | .answerMargin => c.answerMargin
  | .retryLimit => c.retryLimit
  | .holdInterval => c.holdInterval
  | .reportPort => portNo c.reportPort
  | .maxBody => c.maxBody

/-- The configuration with one parameter set to a value within its range. -/
def Params.assign (c : Params) (q : ParamId) (v : Nat) : Params :=
  match q with
  | .station => { c with station := v }
  | .broadcastGrade => { c with broadcastGrade := raiseGrade .g1 (v - 1) }
  | .broadcastHop => { c with broadcastHop := v }
  | .leadWindow => { c with leadWindow := v }
  | .settleInterval => { c with settleInterval := v }
  | .repeatSpacing => { c with repeatSpacing := v }
  | .defaultRepeat => { c with defaultRepeat := v }
  | .answerMargin => { c with answerMargin := v }
  | .retryLimit => { c with retryLimit := v }
  | .holdInterval => { c with holdInterval := v }
  | .reportPort => { c with reportPort := if v = 2 then .B else .A }
  | .maxBody => { c with maxBody := v }

/-- The twelve parameters in their numbering (R174, R185). -/
def allParams : List ParamId :=
  [.station, .broadcastGrade, .broadcastHop, .leadWindow, .settleInterval, .repeatSpacing, .defaultRepeat, .answerMargin,
   .retryLimit, .holdInterval, .reportPort, .maxBody]

end Sys2Proof.Machine
end

