-- ==== Sys2Proof/Machine/Frames.lean ====
section
/-! DEFINITION. Line frames: header, relay path, payload, frame check (R97 to R101), and the fit of a received body to its
kind (R102). -/

namespace Sys2Proof.Machine

/-! ## The frame check (R101) -/

/-- One bit of the cyclic check with generator x^16 + x^12 + x^5 + 1 (R101). -/
def crcBit (r : BitVec 16) : BitVec 16 := if r.msb then (r <<< 1) ^^^ 0x1021#16 else r <<< 1

/-- `n` bits of the check. -/
def crcBits : Nat → BitVec 16 → BitVec 16
  | 0, r => r
  | n + 1, r => crcBits n (crcBit r)

/-- One byte, most significant bit first (R101). -/
def crcByte (r : BitVec 16) (b : Byte) : BitVec 16 := crcBits 8 (r ^^^ (b.setWidth 16 <<< 8))

/-- R101: the check over bytes; the register starts at all ones and the result is not inverted. -/
def frameCheck (bs : List Byte) : BitVec 16 := bs.foldl crcByte 0xFFFF#16

/-- A body with its two check bytes, most significant byte first (R101). -/
def withCheck (bs : List Byte) : List Byte := bs ++ beBytes 2 (frameCheck bs).toNat

/-! ## Building a frame (R97 to R100) -/

/-- The code of a frame kind (R97). -/
def frameKindNo : FrameKind → Nat
  | .announce => 1
  | .order => 2
  | .answer => 3
  | .report => 4
  | .receipt => 5

/-- R98: the control byte: hop limit in bits 1 to 0, position index in bits 3 to 2, relay count in bits 5 to 4. -/
def controlByte (h position hop : Nat) : Byte := BitVec.ofNat 8 (16 * h + 4 * position + hop)

/-- R97 to R99: a body: header, relay path, payload, frame check. A frame as its sender sends it has position index 0. -/
def buildBody (kind : FrameKind) (dest source : UnitNo) (hop : Nat) (path : List UnitNo) (payload : List Byte) : List Byte :=
  withCheck
    (beBytes 1 (frameKindNo kind) ++ beBytes 3 dest ++ beBytes 3 source ++ [controlByte path.length 0 hop]
      ++ path.flatMap (beBytes 3) ++ payload)

/-- R100: the ANNOUNCE payload: group, stamp, countdown, rate, relay set, level. -/
def announcePayload (g : GroupNo) (stamp : Stamp) (countdown : Nat) (st : Setting) : List Byte :=
  beBytes 1 g.val ++ beBytes 2 stamp.toNat ++ beBytes 2 countdown ++ beBytes 1 st.rate ++ [st.relays.setWidth 8]
    ++ beBytes 1 st.level

/-- R100: the ORDER frame payload: tag, order kind, and for ASSIGN the group. -/
def orderPayload (tag : Tag) (k : OrderKind) : List Byte :=
  match k with
  | .assign g => [tag, 1, BitVec.ofNat 8 g.val]
  | .query _ => [tag, 2]
  | .test => [tag, 3]

/-- The number that addresses all units (spec/00_scope.md, Unit numbers). -/
def allUnits : UnitNo := 16777215

/-! ## Reading a body (R98 to R100, R102) -/

/-- Body byte `i`, counted from 0. -/
def byteAt (b : List Byte) (i : Nat) : Byte := b.getD i 0

/-- The unit number in three bytes from place `i`. -/
def unitAt (b : List Byte) (i : Nat) : UnitNo := ofBE [byteAt b i, byteAt b (i + 1), byteAt b (i + 2)]

/-- The relay count h, bits 5 to 4 of the control byte (R98). -/
def relayCount (b : List Byte) : Nat := (byteAt b 7).toNat / 16 % 4

/-- The position index, bits 3 to 2 of the control byte (R98). -/
def positionIndex (b : List Byte) : Nat := (byteAt b 7).toNat / 4 % 4

/-- The destination (R98). -/
def destOf (b : List Byte) : UnitNo := unitAt b 1

/-- The source (R98). -/
def sourceOf (b : List Byte) : UnitNo := unitAt b 4

/-- The relay path as the frame carries it (R99). -/
def pathOf (b : List Byte) : List UnitNo := (List.range (relayCount b)).map fun i => unitAt b (8 + 3 * i)

/-- The payload: B - 10 - 3h bytes after the relay path (R100). -/
def payloadOf (b : List Byte) : List Byte := (b.drop (8 + 3 * relayCount b)).take (b.length - 10 - 3 * relayCount b)

/-- R102: the payload fits the kind the kind byte names. -/
def payloadFits (kind : Nat) (pl : List Byte) : Bool :=
  match kind with
  | 1 => pl.length == 8
  | 2 =>
    ((byteAt pl 1 == 2#8 || byteAt pl 1 == 3#8) && pl.length == 2) || (byteAt pl 1 == 1#8 && pl.length == 3)
  | 3 =>
    ((byteAt pl 1 == 1#8 || byteAt pl 1 == 2#8 || byteAt pl 1 == 3#8) && pl.length == 2)
      || (byteAt pl 1 == 1#8 && pl.length == 8)
  | 4 =>
    (byteAt pl 1 == 1#8 && pl.length == 3) || (byteAt pl 1 == 2#8 && 3 ≤ pl.length && pl.length ≤ 18)
  | 5 => pl.length == 1
  | _ => false

/-- R102: a body fits its kind: its kind byte is one of the five codes, its position index is at most its relay count, and
its payload length and its outcome, order kind or report kind byte are ones the kind allows. -/
def bodyFits (b : List Byte) : Bool :=
  decide (10 + 3 * relayCount b ≤ b.length) && decide (positionIndex b ≤ relayCount b)
    && payloadFits (byteAt b 0).toNat (payloadOf b)

/-- R125: the three tests a frame must pass at its completion. -/
def bodyAccepted (b : List Byte) : Bool :=
  decide (frameCheck b = 0) && bodyFits b && unitValid (sourceOf b) && (pathOf b).all unitValid

end Sys2Proof.Machine
end

