-- ==== Sys2Proof/Machine/Flags.lean ====
section
/-! DEFINITION. Masks, marks and lines of a port: the condition mask, summary and record (R13, R177), the notice mask and the
attention line (R183), and the status byte (R172). -/

namespace Sys2Proof.Machine

/-- The flag of one condition. -/
def CondSet.get (c : CondSet) : Condition → Bool
  | .range => c.range
  | .overflow => c.overflow
  | .underflow => c.underflow
  | .past => c.past

/-- The set with one condition's flag set. -/
def CondSet.insert (c : CondSet) : Condition → CondSet
  | .range => { c with range := true }
  | .overflow => { c with overflow := true }
  | .underflow => { c with underflow := true }
  | .past => { c with past := true }

/-- Every condition masked (R171, R179, R187). -/
def CondSet.all : CondSet := { range := true, overflow := true, underflow := true, past := true }

/-- No condition set (R171, R180, R187). -/
def CondSet.clear : CondSet := { range := false, overflow := false, underflow := false, past := false }

/-- R177: the port records a condition: its place in the summary is set, and it becomes the last-condition record. -/
def PortCtl.record1 (c : PortCtl) (x : Condition) (k : ReqKind) (g : GroupNo) : PortCtl :=
  { c with summary := c.summary.insert x, record := some { condition := x, request := k, group := g } }

/-- The number of a notice kind, 1 to 11 (R174, R184). -/
def noticeKindNo : NoticeKind → Nat
  | .announcementEnded => 1
  | .layerEnded => 2
  | .scheduleApplied => 3
  | .orderEnded => 4
  | .reportWaiting => 5
  | .receiveLost => 6
  | .mainsChange => 7
  | .lineReset => 8
  | .configChanged => 9
  | .queueSpace => 10
  | .overflow => 11

/-- The kind of a notice. -/
def NoticeBody.kind : NoticeBody → NoticeKind
  | .announcementEnded _ => .announcementEnded
  | .layerEnded _ _ _ _ => .layerEnded
  | .scheduleApplied _ _ _ _ => .scheduleApplied
  | .orderEnded _ => .orderEnded
  | .reportWaiting _ _ _ => .reportWaiting
  | .receiveLost _ _ => .receiveLost
  | .mainsChange _ _ _ => .mainsChange
  | .lineReset _ => .lineReset
  | .configChanged _ => .configChanged
  | .queueSpace => .queueSpace
  | .overflow _ _ _ => .overflow

/-- The set that holds one notice kind (R174). -/
def kindBit (k : NoticeKind) : NoticeSet := 1#11 <<< (noticeKindNo k - 1)

/-- A notice kind is in a set. -/
def inKinds (k : NoticeKind) (m : NoticeSet) : Bool := m.getLsbD (noticeKindNo k - 1)

/-- R183: the attention line as the queue and the notice mask give it: asserted while at least one notice of an unmasked
kind is held. -/
def attentionOf (notices : List Notice) (mask : NoticeSet) : Bool := notices.any fun n => !(inKinds n.body.kind mask)

/-- R183: the attention line is judged again. -/
def PortCtl.judge (c : PortCtl) : PortCtl := { c with attention := attentionOf c.notices c.noticeMask }

/-- R181: one more discard is counted in the OVERFLOW notice, the newest in the queue. -/
def countDiscard (k : NoticeKind) (count : Count) : List Notice → List Notice
  | [] => []
  | [n] =>
    match n.body with
    | .overflow d lost _ => [{ n with body := .overflow (min 65535 (d + 1)) (lost ||| kindBit k) count }]
    | _ => [n]
  | n :: m :: ns => n :: countDiscard k count (m :: ns)

/-- R181: a notice arrives at a port. Below 15 held it joins the tail; with 15 held an OVERFLOW notice takes its place at
the tail and shedding begins; while shedding it is discarded and counted. Then R183: the attention line is judged. -/
def PortCtl.arrive (c : PortCtl) (count : Count) (b : NoticeBody) : PortCtl :=
  if c.shedding then
    PortCtl.judge { c with notices := countDiscard b.kind count c.notices }
  else if c.notices.length < 15 then
    PortCtl.judge { c with notices := c.notices ++ [{ count := count, body := b }] }
  else
    PortCtl.judge
      { c with notices := c.notices ++ [{ count := count, body := .overflow 1 (kindBit b.kind) count }], shedding := true }

/-- The number of a port state in the status byte: 0 IDLE, 1 WORKING, 2 ANSWERED (R172). -/
def portStateNo : PortState → Nat
  | .idle => 0
  | .working => 1
  | .answered => 2

/-- R172: the status byte: port state in bits 1 to 0, attention in bit 2, overrun marker in bit 3, notices held in bit 4. -/
def PortCtl.status (c : PortCtl) : Byte :=
  BitVec.ofNat 8 (portStateNo c.state + (if c.attention then 4 else 0) + (if c.overrun then 8 else 0)
    + (if c.notices = [] then 0 else 16))

end Sys2Proof.Machine
end

