-- ==== Sys2Proof/Machine/Messages.lean ====
section
/-! DEFINITION. The bytes of a response and of a notice (R173, R174). Where R174 can be read two ways the choice is in
log 20. -/

namespace Sys2Proof.Machine

/-! ## Values (R174) -/

/-- A one-byte number. -/
def enc1 (n : Nat) : List Byte := beBytes 1 n

/-- A mains count, 5 bytes. -/
def encCount (c : Count) : List Byte := beBytes 5 c

/-- A unit number, 3 bytes. -/
def encUnit (u : UnitNo) : List Byte := beBytes 3 u

/-- A stamp, 2 bytes. -/
def encStamp (x : Stamp) : List Byte := beBytes 2 x.toNat

/-- A flag: 1 for masked, set or yes; 0 for the other. -/
def encFlag (b : Bool) : List Byte := [if b then 1 else 0]

/-- A field that may be absent: 0 when absent; 1 when present, then the value. -/
def encOpt {α : Type} (f : α → List Byte) : Option α → List Byte
  | none => [0]
  | some x => 1 :: f x

/-- A tariff setting, 3 bytes: rate, relay set, level (R100). -/
def encSetting (st : Setting) : List Byte := enc1 st.rate ++ [st.relays.setWidth 8] ++ enc1 st.level

/-- A relay path: the number of relays, then the unit numbers. -/
def encPath (p : List UnitNo) : List Byte := enc1 p.length ++ p.flatMap encUnit

/-- A port: 1 A, 2 B. -/
def encPort (p : Port) : List Byte := enc1 (portNo p)

/-- An origin of a base layer: 1 A, 2 B, 3 SCHEDULE. -/
def encLayerOrigin : LayerOrigin → List Byte
  | .port p => encPort p
  | .schedule => enc1 3

/-- A grade. -/
def encGrade (g : Grade) : List Byte := enc1 (gradeNo g)

/-- A phase: its place in L1, L2, L3. -/
def encPhase : Phase → List Byte
  | .L1 => enc1 1
  | .L2 => enc1 2
  | .L3 => enc1 3

/-- A mains state: its place in STARTING, PRESENT, LOST (R41). -/
def encMains : MainsState → List Byte
  | .starting => enc1 1
  | .present => enc1 2
  | .lost => enc1 3

/-- A pre-announced mark: its place in NONE, QUEUED, COMPLETED (R27). -/
def encMark : Mark → List Byte
  | .none => enc1 1
  | .queued => enc1 2
  | .completed => enc1 3

/-- An order kind: 1 ASSIGN, 2 QUERY, 3 TEST (R100). -/
def orderKindNo : OrderKind → Nat
  | .assign _ => 1
  | .query _ => 2
  | .test => 3

/-- An ending: its place in the list of R155. -/
def endingNo : Ending → Nat
  | .accepted => 1
  | .rejected => 2
  | .unreached => 3
  | .deferredOut => 4
  | .cancelled => 5

/-- A comparison: its place in the list of R151. -/
def comparisonNo : Comparison → Nat
  | .foreign => 1
  | .unordered => 2
  | .same => 3
  | .behind => 4

/-- A condition: 1 RANGE, 2 OVERFLOW, 3 UNDERFLOW, 4 PAST (R173). -/
def conditionNo : Condition → Nat
  | .range => 1
  | .overflow => 2
  | .underflow => 3
  | .past => 4

/-- An outcome: 0 to 7 (R173). -/
def outcomeNo : ReqOutcome → Nat
  | .done => 0
  | .adjusted => 1
  | .full => 2
  | .notFound => 3
  | .inactive => 4
  | .condition => 5
  | .wrongPort => 6
  | .malformed => 7

/-- Retries remaining: the number, 7 for UNLIMITED. -/
def encRetries : Retries → List Byte
  | .limited n => enc1 n
  | .unlimited => enc1 7

/-- The four flags of a condition mask or summary, in the order of R171. -/
def encConds (c : CondSet) : List Byte :=
  encFlag c.range ++ encFlag c.overflow ++ encFlag c.underflow ++ encFlag c.past

/-- A parameter's value: 3 bytes for the station unit number, 2 bytes for each other (R174, R185). -/
def encParam (q : ParamId) (v : Nat) : List Byte :=
  match q with
  | .station => beBytes 3 v
  | _ => beBytes 2 v

/-- A set of parameters: bit n - 1 for the parameter numbered n. -/
def paramSet (qs : List ParamId) : Nat := ((allParams.zipIdx).map fun (q, i) => if q ∈ qs then 2 ^ i else 0).sum

/-! ## Notices -/

/-- The fields of a notice, in the order its description gives them: LAYER ENDED has one order for EVICTED (R17) and another
for EXPIRED (R23); its codes are log 20's. -/
def encNoticeBody : NoticeBody → List Byte
  | .announcementEnded n =>
    (match n.reason with
      | .completed => enc1 1
      | .completedLate => enc1 2
      | .superseded => enc1 3)
      ++ enc1 n.group.val
      ++ (match n.flavour with
        | .new => enc1 1
        | .catchUp => enc1 2)
      ++ encSetting n.content ++ encOpt encCount n.activation ++ encStamp (n.stamp.getD 0) ++ enc1 n.done
      ++ encOpt encCount n.lastEnd
  | .layerEnded .evicted g cls st => enc1 1 ++ enc1 (classNo cls) ++ encSetting st ++ enc1 g.val
  | .layerEnded .expired g cls st => enc1 2 ++ enc1 g.val ++ enc1 (classNo cls) ++ encSetting st
  | .scheduleApplied g a st m => enc1 g.val ++ encCount a ++ encSetting st ++ encMark m
  | .orderEnded n =>
    [n.reference] ++ encUnit n.unit ++ enc1 (orderKindNo n.kind) ++ enc1 (endingNo n.ending)
      ++ encOpt (fun t => [t]) n.tag ++ beBytes 2 (min 65535 n.attempts) ++ encOpt encGrade n.lastGrade
      ++ encOpt encRetries n.retries ++ encOpt enc1 n.defers
      ++ encOpt (fun r => enc1 r.group ++ encSetting r.setting ++ encStamp r.stamp) n.reply
      ++ encOpt (fun c => enc1 (comparisonNo c)) n.comparison
  | .reportWaiting u n held => encUnit u ++ [n] ++ enc1 held
  | .receiveLost ph c => encPhase ph ++ encCount c
  | .mainsChange l e c => encMains l ++ encMains e ++ encCount c
  | .lineReset c => encCount c
  | .configChanged cs =>
    beBytes 2 (paramSet (cs.map Prod.fst)) ++ cs.flatMap fun (q, old, new) => encParam q old ++ encParam q new
  | .queueSpace => []
  | .overflow d lost last => beBytes 2 d ++ beBytes 2 lost.toNat ++ encCount last

/-- A notice: its kind, the mains count at which it was queued, then its own fields. -/
def encNotice (n : Notice) : List Byte := enc1 (noticeKindNo n.body.kind) ++ encCount n.count ++ encNoticeBody n.body

/-! ## Responses -/

/-- A layer: its kind, class (overrides), setting, origin, expiry, push count (overrides) (R20). -/
def encLayer : LayerReading → List Byte
  | .base l => enc1 1 ++ [0] ++ encSetting l.setting ++ encLayerOrigin l.origin ++ [0] ++ [0]
  | .override l =>
    enc1 2 ++ 1 :: enc1 (classNo l.cls) ++ encSetting l.setting ++ encPort l.origin ++ encOpt encCount l.expiry
      ++ 1 :: encCount l.pushed

/-- A group record (R20). -/
def encGroup (r : GroupReading) : List Byte :=
  (if r.active then enc1 2 else enc1 1) ++ enc1 r.layerCount ++ enc1 r.layers.length ++ r.layers.flatMap encLayer
    ++ encOpt (fun x => encSetting x.setting ++ encStamp x.stamp) r.stated
    ++ encOpt (fun x => encSetting x.setting ++ encStamp x.stamp ++ encCount x.activation) r.next
    ++ encStamp r.stampCounter ++ encFlag r.due
    ++ (match r.annState with
      | .none => enc1 1
      | .queued => enc1 2
      | .inFlight => enc1 3)
    ++ (if r.settled then enc1 1 else enc1 2)

/-- The fields of a response, in the order the request's description gives them. -/
def encBody : ResponseBody → List Byte
  | .empty => []
  | .group r => encGroup r
  | .schedule held es =>
    enc1 held ++ enc1 es.length
      ++ es.flatMap fun (i, e) =>
        enc1 i ++ enc1 e.group.val ++ encCount e.activation ++ encSetting e.setting ++ encPort e.origin ++ encMark e.mark
  | .time c st e => encCount c ++ encMains st ++ beBytes 4 e
  | .report r n =>
    encUnit r.source ++ [r.number] ++ enc1 r.data.length ++ r.data ++ encPath r.path ++ encPhase r.phase ++ encGrade r.grade
      ++ encCount r.count ++ enc1 n
  | .place i => enc1 i.val
  | .flushed r p => enc1 r ++ enc1 p
  | .route r held pinned =>
    (match r with
      | none => []
      | some x =>
        enc1 x.place.val ++ encPath x.route.path ++ encPhase x.route.phase ++ encGrade x.route.grade ++ encFlag x.route.pinned
          ++ encCount x.route.written ++ encFlag x.lastUsed)
      ++ enc1 held ++ enc1 pinned
  | .notice n k =>
    (match n with
      | none => []
      | some x => encNotice x)
      ++ enc1 k
  | .conditions m sm r o =>
    encConds m ++ encConds sm
      ++ encOpt (fun x => enc1 (conditionNo x.condition) ++ enc1 x.request.code ++ enc1 x.group.val) r ++ encFlag o
  | .params c => allParams.flatMap fun q => encParam q (c.value q)

/-- R173: a response message: kind, outcome, condition, field length, fields. -/
def encResponse (r : Response) : List Byte :=
  (match r.kind with
    | some k => enc1 k.code
    | none => [0])
    ++ enc1 (outcomeNo r.outcome)
    ++ (match r.condition with
      | some c => enc1 (conditionNo c)
      | none => [0])
    ++ enc1 (encBody r.body).length ++ encBody r.body

end Sys2Proof.Machine
end

