-- ==== Sys2Proof/Machine/Ops.lean ====
section
/-! DEFINITION. The shared operations on one block each: ports (notices, conditions, responses, taking a request), group
records, open GWAITs, schedule marks, free choices. -/

namespace Sys2Proof.Machine

/-- What a command answers: every command of this part has a next state. -/
abbrev Out := Host.Outcome State Fault Refusal

/-! ## Reading the state -/

/-- The mains count (R41). -/
def State.count (s : State) : Count := s.time.count

/-- The controller of a port. -/
def State.port (s : State) (p : Port) : PortCtl := s.ports.get p

/-- The record of a group. -/
def State.group (s : State) (g : GroupNo) : GroupRec := s.groups.get g

/-- Changes the controller of one port. -/
def updPort (p : Port) (f : PortCtl → PortCtl) (s : State) : State := s.setPorts (s.ports.set p (f (s.ports.get p)))

/-- Changes the record of one group. -/
def updGroup (g : GroupNo) (f : GroupRec → GroupRec) (s : State) : State := s.setGroups (s.groups.set g (f (s.groups.get g)))

/-- Replaces the dispatch queue. -/
def setQueue (q : List Entry) (s : State) : State := s.setDisp { s.disp with queue := q }

/-! ## Free choices (log 11, log 12) -/

/-- Takes the next free choice between two orders. -/
def drawOrder (s : State) : Bool × State := (Config.orderChoice s.choices, s.setChoices (s.choices + 1))

/-! ## Ports -/

/-- R181: a notice is queued to a port. -/
def notify (p : Port) (b : NoticeBody) (s : State) : State := updPort p (fun c => c.arrive s.count b) s

/-- A notice to the port an announcement has as origin, if it has one (R95). -/
def notifyOrigin (p : Option Port) (b : NoticeBody) (s : State) : State :=
  match p with
  | some p => notify p b s
  | none => s

/-- R175, R176: the owner hands back one response: it enters the slot and the port becomes ANSWERED. -/
def respond (p : Port) (r : Response) (s : State) : State :=
  updPort p (fun c => { c with state := .answered, slot := some r, inHand := none }) s

/-- A response with no condition. -/
def reply (p : Port) (k : ReqKind) (o : ReqOutcome) (b : ResponseBody) (s : State) : State :=
  respond p { kind := some k, outcome := o, condition := none, body := b } s

/-- A refusal with MALFORMED by a request's owner (R174). -/
def malformed (p : Port) (k : ReqKind) (s : State) : State := reply p k .malformed .empty s

/-- A refusal with CONDITION (R13, R173). -/
def refuse (p : Port) (k : ReqKind) (x : Condition) (s : State) : State :=
  respond p { kind := some k, outcome := .condition, condition := some x, body := .empty } s

/-- R175: the request is discarded and the overrun marker is set. -/
def overrun (p : Port) (s : State) : State := updPort p (fun c => { c with overrun := true }) s

/-- R175: an IDLE port takes a request: it becomes WORKING with the request in hand. -/
def takeRequest (p : Port) (r : Request) (s : State) : State :=
  updPort p (fun c => { c with state := .working, inHand := some r }) s

/-- The owner takes the request in hand; the port stays WORKING until the response (R175, R176). -/
def clearInHand (p : Port) (s : State) : State := updPort p (fun c => { c with inHand := none }) s

/-- R173: the port controller refuses a message with MALFORMED. -/
def refuseEnvelope (p : Port) (k : Option ReqKind) (s : State) : State :=
  respond p { kind := k, outcome := .malformed, condition := none, body := .empty } s

/-- A request row through a port (log 3). On an IDLE port the request is written and taken; with this very request in hand
its owner acts on it; otherwise it is a request written to a busy port, which discards it (R175). -/
def requestStep (p : Port) (k : ReqKind) (fields : List Byte) (act : State → State) (s : State) : State :=
  match (s.port p).state with
  | .idle =>
    if fields.length ≤ 70 then act (clearInHand p (takeRequest p { kind := k, fields := fields } s))
    else refuseEnvelope p (some k) s
  | .working =>
    if (s.port p).inHand = some { kind := k, fields := fields } then act (clearInHand p s) else overrun p s
  | .answered => overrun p s

/-- R13, R177: a condition raised by a request is recorded by its port, masked or not. -/
def raiseCond (p : Port) (x : Condition) (k : ReqKind) (g : GroupNo) (s : State) : State :=
  updPort p (fun c => c.record1 x k g) s

/-- R13: the port has a condition masked. -/
def masked (p : Port) (x : Condition) (s : State) : Bool := (s.port p).mask.get x

/-! ## Groups -/

/-- The lists' test for an announcement entry of a group. -/
def isAnnOf (g : GroupNo) : Entry → Bool
  | .ann a => decide (a.group = g)
  | _ => false

/-- An announcement entry of the group that is in flight (R57). -/
def isInFlight (g : GroupNo) : Entry → Bool
  | .ann a => decide (a.group = g) && a.started
  | _ => false

/-- An announcement entry of the group that is not started (R57). -/
def isNotStarted (g : GroupNo) : Entry → Bool
  | .ann a => decide (a.group = g) && !a.started
  | _ => false

/-- The group has an announcement entry, queued or in flight. -/
def hasAnn (g : GroupNo) (s : State) : Bool := s.disp.queue.any (isAnnOf g)

/-- R20: the announcement state of a group. -/
def annState (g : GroupNo) (s : State) : AnnState :=
  if s.disp.queue.any (isInFlight g) then .inFlight else if hasAnn g s then .queued else .none

/-- R20, R21: the group is settled: no announcement entry and no due flag. -/
def settled (g : GroupNo) (s : State) : Bool := !hasAnn g s && !(s.group g).due

/-- R20: the record of a group as GREAD returns it, with up to 2 layers from the start layer. -/
def readGroup (g : GroupNo) (start : Nat) (s : State) : GroupReading :=
  let r := s.group g
  { active := isActive r.holding
    layerCount := (layersOf r.holding).length
    layers := ((layersOf r.holding).drop start).take 2
    stated := r.stated
    next := r.next
    stampCounter := r.stampCounter
    due := r.due
    annState := annState g s
    settled := settled g s }

/-- R28: a COMPLETED mark returns to NONE when the group's next stated is made absent by any event other than its
application. -/
def unmarkCompleted (g : GroupNo) (activation : Count) (s : State) : State :=
  s.setSchedule (s.schedule.map fun e =>
    if e.group = g ∧ e.activation = activation ∧ e.mark = .completed then { e with mark := .none } else e)

/-- Next stated is made absent (R10, R11, R19), with the mark it carries (R28). -/
def clearNext (g : GroupNo) (s : State) : State :=
  match (s.group g).next with
  | some n => unmarkCompleted g n.activation (updGroup g (fun r => { r with next := none }) s)
  | none => s

/-- The stated setting is made absent (R11). -/
def clearStated (g : GroupNo) (s : State) : State := updGroup g (fun r => { r with stated := none }) s

/-- R12: next stated is applied when its activation count is at or before the mains count. -/
def applyNext (g : GroupNo) (s : State) : State :=
  match (s.group g).next with
  | some n =>
    if n.activation ≤ s.count then
      updGroup g (fun r => { r with stated := some { setting := n.setting, stamp := n.stamp }, next := none }) s
    else s
  | none => s

/-- The entry of a group with an activation count (R27: at most one). -/
def isEntryOf (g : GroupNo) (a : Count) (e : SchedEntry) : Bool := decide (e.group = g) && decide (e.activation = a)

/-- The entry of a group whose activation count is reached. -/
def isReached (g : GroupNo) (count : Count) (e : SchedEntry) : Bool :=
  decide (e.group = g) && decide (e.activation ≤ count)

/-- The overrides of a group, top down. -/
def overridesOf : Holding → List Override
  | .inactive => []
  | .active _ os => os

/-- R16, R23: an expiry is given and is at or before a count. -/
def expiryPast (e : Option Count) (count : Count) : Bool :=
  match e with
  | some e => decide (e ≤ count)
  | none => false

/-- R23: the override's expiry count is reached. -/
def isExpired (count : Count) (o : Override) : Bool := expiryPast o.expiry count

/-- R23, R34, R36: an expiry or an activation of the group, its count reached, is still to act. -/
def owesEvent (g : GroupNo) (s : State) : Bool :=
  (overridesOf (s.group g).holding).any (isExpired s.count) || s.schedule.any (isReached g s.count)

/-- R23, R34: the layers of a group once every expiry and activation of it whose count is reached has acted: the overrides
reached are gone, and the last entry reached has set the base. -/
def afterEvents (g : GroupNo) (s : State) : Holding :=
  match (s.group g).holding with
  | .inactive => .inactive
  | .active b os =>
    .active
      (match (s.schedule.filter (isReached g s.count)).getLast? with
        | some e => { setting := e.setting, origin := .schedule }
        | none => b)
      (os.filter fun o => !isExpired s.count o)

/-- R12: next stated's activation count is at or before the mains count. -/
def nextDue (g : GroupNo) (s : State) : Bool :=
  match (s.group g).next with
  | some n => decide (n.activation ≤ s.count)
  | none => false

/-- The due flag of a group is set or cleared (R9). -/
def setDue (g : GroupNo) (b : Bool) (s : State) : State := updGroup g (fun r => { r with due := b }) s

/-- R9: the lowest-numbered group whose due flag is set. -/
def lowestDue (s : State) : Option GroupNo := (List.finRange 64).find? fun g => (s.group g).due

/-- The list's mark of a linked pre-announcement is moved from QUEUED (R28). -/
def moveMark (g : GroupNo) (activation : Option Count) (m : Mark) (s : State) : State :=
  match activation with
  | some a =>
    s.setSchedule (s.schedule.map fun e =>
      if e.group = g ∧ e.activation = a ∧ e.mark = .queued then { e with mark := m } else e)
  | none => s

/-! ## GWAIT (R21, R22) -/

/-- An open GWAIT is answered DONE with the record as it stands and the settled mark given (R22). -/
def answerWait (p : Port) (g : GroupNo) (mark : Bool) (s : State) : State :=
  reply p .gwait .done (.group { readGroup g 0 s with settled := mark }) (s.setWaits (s.waits.set p none))

/-- R22: the open GWAIT of a port is answered SETTLED once its group is settled. -/
def settleWait (p : Port) (s : State) : State :=
  match s.waits.get p with
  | some w => if settled w.group s then answerWait p w.group true s else s
  | none => s

/-- R22: the test of both ports' waits, made once an event has been taken whole (log 13). -/
def settleWaits (s : State) : State := settleWait .B (settleWait .A s)

end Sys2Proof.Machine
end

