-- ==== Sys2Proof/Machine/Queue.lean ====
section
/-! DEFINITION. The dispatch queue and what reaches it: announcement requests (R60 to R63), the convergence check (R8), the
offers of freed places (R65), the catch-up request (R24, R64), the tests of the Schedule List (R31, R32), the moves of
orders (R73), the departure of fences (R75), QUEUE SPACE (R72), and the closing of an event. -/

namespace Sys2Proof.Machine

/-! ## Reading the queue -/

/-- The entry is a fence. -/
def isFence : Entry → Bool
  | .fence _ => true
  | _ => false

/-- The entry is an order or a fence. -/
def isWork : Entry → Bool
  | .ann _ => false
  | _ => true

/-- R56: a place is free: fewer than 16 entries. -/
def placeFree (s : State) : Bool := decide (s.disp.queue.length < 16)

/-- R72: room for an order: fewer than 12 orders and fences together and fewer than 16 entries. -/
def orderRoom (s : State) : Bool := decide (s.disp.queue.countP isWork < 12) && placeFree s

/-- R59: the place of the last segment's first entry: behind the last fence. -/
def lastSegmentStart : List Entry → Nat
  | [] => 0
  | e :: es => if es.any isFence then lastSegmentStart es + 1 else if isFence e then 1 else 0

/-! ## The frame of a departing entry (R118) -/

/-- R113, R118: what an idle Transmitter is: IDLE, or DORMANT while the station unit number is 0. -/
def restState (s : State) : TxState := if s.conf.station = 0 then .dormant else .idle

/-- R94, R118: when the entry on the line leaves the queue the transmission in progress is removed, the Transmitter
abandons the frame with no backoff and the holder becomes none. -/
def abandonFor (g : GroupNo) (s : State) : State :=
  match s.disp.sending with
  | some t =>
    if t.group = g then
      ((s.setDisp { s.disp with sending := none }).setTx { s.tx with state := restState s, frame := none }).setArb
        { s.arb with holder := .none }
    else s
  | none => s

/-! ## Cut-short and withdrawal (R61, R69, R70) -/

/-- R95, R96: the ANNOUNCEMENT ENDED notice of an entry. -/
def annNotice (a : Ann) (reason : EndReason) : NoticeBody :=
  .announcementEnded
    { reason := reason, group := a.group, flavour := a.flavour, content := a.content, activation := a.activation
      stamp := a.stamp, done := a.done, lastEnd := a.lastEnd }

/-- R61, R69: the reports of a cut-short entry: the frame if it is on the line, the notice SUPERSEDED to its origin, stated
setting and next stated absent (R11), and the mark of a timed entry's schedule entry (R28). -/
def reportCutShort (a : Ann) (s : State) : State :=
  moveMark a.group a.activation .none
    (clearNext a.group (clearStated a.group (notifyOrigin a.origin (annNotice a .superseded) (abandonFor a.group s))))

/-- Removes the in-flight entries of a group and makes their reports (R61, R70). The number is how many left. -/
def cutShort (g : GroupNo) (s : State) : State × Nat :=
  let gone := s.disp.queue.filter (isInFlight g)
  let s1 := setQueue (s.disp.queue.filter fun e => !isInFlight g e) s
  (gone.foldl (fun s e =>
    match e with
    | .ann a => reportCutShort a s
    | _ => s) s1, gone.length)

/-! ## Announcement requests (R60 to R63) -/

/-- An announcement request (spec/04, 4.2): content, activation, origin and repeat count for a group. -/
structure AnnReq where
  group : GroupNo
  content : Setting
  activation : Option Count
  origin : Option Port
  repeats : Nat
  deriving DecidableEq, Repr

/-- What the Dispatcher did with a request: the state, whether an entry was made, and how many places a cut-short left
free that no append took. -/
structure Asked where
  state : State
  made : Bool
  freed : Nat

/-- R60: the entry absorbs the request: NEW, timed, its activation count reached, its content equal. -/
def absorbs (r : AnnReq) (count : Count) : Entry → Bool
  | .ann a =>
    decide (a.group = r.group) && decide (a.flavour = .new) && decide (a.content = r.content)
      && (match a.activation with
        | some x => decide (x ≤ count)
        | none => false)
  | _ => false

/-- R62: the entry after a merge: it keeps its place and its entry count. -/
def mergeAnn (r : AnnReq) (a : Ann) : Ann :=
  { a with
    content := r.content, activation := r.activation, origin := r.origin, repeats := r.repeats, flavour := .new, stamp := none }

/-- R62: the merge into the first not-started entry of the group in a segment, with the activation the entry had. -/
def mergeIn (r : AnnReq) : List Entry → Option (List Entry × Option Count)
  | [] => none
  | e :: es =>
    match e with
    | .ann a =>
      if isNotStarted r.group (.ann a) then some (.ann (mergeAnn r a) :: es, a.activation)
      else (mergeIn r es).map fun x => (e :: x.1, x.2)
    | _ => (mergeIn r es).map fun x => (e :: x.1, x.2)

/-- R63: the entry a request makes. -/
def newAnn (r : AnnReq) (count : Count) : Ann :=
  { group := r.group, content := r.content, activation := r.activation, flavour := .new, stamp := none, started := false
    repeats := r.repeats, done := 0, lastEnd := none, entryCount := count, origin := r.origin, late := false }

/-- R62, R63: merge, append or refusal, after `n` entries of the group were cut short. -/
def place (r : AnnReq) (n : Nat) (s : State) : Asked :=
  let k := lastSegmentStart s.disp.queue
  match mergeIn r (s.disp.queue.drop k) with
  | some (tail, old) => ⟨moveMark r.group old .none (setQueue (s.disp.queue.take k ++ tail) s), false, n⟩
  | none =>
    if placeFree s then ⟨setQueue (s.disp.queue ++ [.ann (newAnn r s.count)]) s, true, n - 1⟩
    else
      match r.activation with
      | none => ⟨setDue r.group true s, false, n⟩
      | some _ => ⟨s, false, n⟩

/-- R60 to R63: a NEW request. -/
def request (r : AnnReq) (s : State) : Asked :=
  if r.activation = none ∧ s.disp.queue.any (absorbs r s.count) then ⟨s, false, 0⟩
  else
    let (s1, n) := cutShort r.group s
    place r n s1

/-! ## The convergence check (R8) -/

/-- R8: a matching entry: immediate, NEW, with that content. -/
def isMatching (g : GroupNo) (st : Setting) : Entry → Bool
  | .ann a => decide (a.group = g) && decide (a.flavour = .new) && decide (a.activation = none) && decide (a.content = st)
  | _ => false

/-- R8: a stale entry: immediate, NEW, with other content. -/
def isStale (g : GroupNo) (st : Setting) : Entry → Bool
  | .ann a => decide (a.group = g) && decide (a.flavour = .new) && decide (a.activation = none) && decide (a.content ≠ st)
  | _ => false

/-- R8: the check requests an announcement of the effective setting `e`. -/
def wants (g : GroupNo) (e : Setting) (s : State) : Bool :=
  match (s.group g).stated with
  | some x =>
    if x.setting = e then s.disp.queue.any (isStale g e) else !(s.disp.queue.any (isMatching g e))
  | none => !(s.disp.queue.any (isMatching g e))

/-- R8: the check of a group, with R12 before it. With the due flag set it does nothing. Where a stale entry stands and an
entry of the effective setting is already requested behind it, the second case of R8 requests again, and the merge gives that
entry the top layer's origin and the default repeat count (R62; log 30); where the stale entry is in flight it is cut short
(R61). So it is also at an SBASE that leaves the effective setting unchanged, of which R15 says that it requests none: the model
follows R8 (log 30). -/
def check (g : GroupNo) (s0 : State) : Asked :=
  let s := applyNext g s0
  let r := s.group g
  match effectiveOf r.holding with
  | none => ⟨s, false, 0⟩
  | some e =>
    if !r.due && wants g e s then
      request
        { group := g, content := e, activation := none, origin := topOrigin r.holding, repeats := s.conf.defaultRepeat } s
    else ⟨s, false, 0⟩

/-- R8, R60: an entry carries `e` to the group's units: a matching one, or a timed one that is reached. -/
def carried (g : GroupNo) (e : Setting) (s : State) : Bool :=
  s.disp.queue.any (isMatching g e)
    || s.disp.queue.any (absorbs { group := g, content := e, activation := none, origin := none, repeats := 0 } s.count)

/-- R12, R28, R34, R36: expiries or activations of the group are still to act at this crossing, and leave it an effective
setting that is stated or that an entry carries, so the check is left to them (log 32). -/
def leftToEvents (g : GroupNo) (s : State) : Bool :=
  owesEvent g s
    && (match effectiveOf (afterEvents g s) with
        | some e => decide ((s.group g).stated.map (·.setting) = some e) || carried g e s
        | none => false)

/-- R5, R36: expiries or activations of the group are still to act at this crossing, and leave it the effective setting it has,
under a top layer of another origin, so the check is left to them (log 37). -/
def originLeft (g : GroupNo) (s : State) : Bool :=
  owesEvent g s
    && decide (effectiveOf (afterEvents g s) = effectiveOf (s.group g).holding)
    && decide (topOrigin (afterEvents g s) ≠ topOrigin (s.group g).holding)

/-- R12, R28, R36: the check of a group's settings as they stand, or none where it is left to the events of the group that are
still to act (log 32). -/
def checkUnlessLeft (g : GroupNo) (s : State) : Asked := if leftToEvents g s then ⟨s, false, 0⟩ else check g s

/-- R12, R36: the check after a timer of a group at a crossing, with R12 before it: an application of next stated, an expiry or
an activation. It is left to the events of the group that are still to act where the setting they leave is stated or carried
(log 32), or is the effective setting already, under a top layer of another origin (log 37). So the requests come out the same,
each with the origin R5 gives it, in every order of those events. -/
def checkAfter (g : GroupNo) (s : State) : Asked :=
  let s1 := applyNext g s
  if originLeft g s1 then ⟨s1, false, 0⟩ else checkUnlessLeft g s1

/-- R10, R28, R88: the check after a completion, with R12 before it. With the base on top it is left to the group's activations
that are still to act at this crossing, where the setting they leave is stated or carried (R28; log 32). With an override on top it is made,
an override whose expiry is still to act among them. -/
def checkCompleted (g : GroupNo) (s : State) : Asked :=
  if (overridesOf (s.group g).holding).isEmpty then checkUnlessLeft g (applyNext g s) else check g s

/-! ## Freed places (R9, R65, R72) -/

/-- R72: room is tested; each port whose QUEUE SPACE mark is set receives its notice and the mark is cleared. -/
def spaceNotice (p : Port) (s : State) : State :=
  if s.disp.spaceMarks.get p then
    notify p .queueSpace (s.setDisp { s.disp with spaceMarks := s.disp.spaceMarks.set p false })
  else s

/-- R72: the test for room. -/
def queueSpace (s : State) : State := if orderRoom s then spaceNotice .B (spaceNotice .A s) else s

/-- R9, R65: freed places are offered to the due groups in ascending number. Each offer clears a flag; an offer of a place
ends when an entry is made, also by a request that took the place of the group's own cut-short (log 31). The first argument
bounds the offers, of which there are at most one for each group. -/
def offerPlaces : Nat → Nat → State → State
  | 0, _, s => s
  | k + 1, places, s =>
    if places = 0 ∨ placeFree s = false then s
    else
      match lowestDue s with
      | none => s
      | some g =>
        let r := check g (setDue g false s)
        offerPlaces k (places + r.freed - (if r.made then 1 else 0)) r.state

/-- R65, R72: what follows departures that left `n` places free. The offers belong to the step of the departure, so no ORDER or
FENCE takes a freed place ahead of them, which R65 allows: the model's choice (log 36). -/
def afterFreed (n : Nat) (s : State) : State := if n = 0 then s else queueSpace (offerPlaces 64 n s)

/-! ## Moves and fences (R73, R75, R138) -/

/-- R73: the place, counted from 0, of the order nearest the head that is in the look-ahead window and not behind a fence. -/
def movable : Nat → List Entry → Option Nat
  | 0, _ => none
  | _ + 1, [] => none
  | k + 1, e :: es =>
    match e with
    | .fence _ => none
    | .order _ => some 0
    | .ann _ => (movable k es).map (· + 1)

/-- R138: the tag taken: the counter's value, or the next value that no live exchange holds. -/
def freeTag : Nat → Tag → List Exchange → Tag
  | 0, t, _ => t
  | k + 1, t, xs => if xs.any fun x => decide (x.tag = t) then freeTag k (t + 1) xs else t

/-- R137: the retries a new exchange has: the retry limit, UNLIMITED when it is 7. -/
def retriesOf (limit : Nat) : Retries := if limit = 7 then .unlimited else .limited limit

/-- R137, R138: the exchange built from an order. -/
def newExchange (tag : Tag) (o : OrderEntry) (fence : Bool) (limit : Nat) : Exchange :=
  { tag := tag, unit := o.unit, kind := o.kind, port := o.port, reference := o.reference, state := .ready
    retries := retriesOf limit, defers := 4, fallback := 0, attempt := none, attempts := 0, deadline := none
    holdUntil := none, fenceMark := fence, cancelPending := false }

/-- R73, R138: an order moves into the exchange table: the exchange takes a free tag and joins the tail of the ready
order; its fence mark is set if a fence is held anywhere in the queue. -/
def moveOrder (o : OrderEntry) (s : State) : State :=
  let t := freeTag 256 s.exch.tagCounter s.exch.table
  s.setExch
    { table := s.exch.table ++ [newExchange t o (s.disp.queue.any isFence) s.conf.retryLimit]
      tagCounter := t + 1
      ready := s.exch.ready ++ [t] }

/-- One departure the Dispatcher makes of its own accord, if one is due: the order nearest the head moves (R73), or the
fence at the head leaves (R75). -/
def advance1 (s : State) : Option State :=
  let m := if s.exch.table.length < 8 then movable 4 s.disp.queue else none
  match m with
  | some i =>
    match s.disp.queue[i]? with
    | some (.order o) => some (afterFreed 1 (moveOrder o (setQueue (s.disp.queue.eraseIdx i) s)))
    | _ => none
  | none =>
    match s.disp.queue with
    | .fence _ :: es => if s.exch.table.any (·.fenceMark) then none else some (afterFreed 1 (setQueue es s))
    | _ => none

/-- Moves and fence departures until none is due. Each takes an order or a fence out of the queue, so the queue's length
bounds their number. -/
def advanceN : Nat → State → State
  | 0, s => s
  | k + 1, s =>
    match advance1 s with
    | some s' => advanceN k s'
    | none => s

/-- R73, R75: the moves and fence departures that are due. -/
def advanceAll (s : State) : State := advanceN s.disp.queue.length s

/-- The end of an event in which departures left `n` places free: the offers and the test for room, the moves and fence
departures they allow, and the test of the open GWAITs (R65, R72, R73, R75, R22). The offers are made here, inside the step, and
not after a request taken in between (log 36). -/
def closeEvent (n : Nat) (s : State) : State := settleWaits (advanceAll (afterFreed n s))

/-- The end of an event in which an entry left the queue and `n` places are still to be offered: as `closeEvent`, the test for
room being owed whether or not a place is left (R65, R72). Here too the offers are made inside the step (log 36). -/
def closeDeparture (n : Nat) (s : State) : State := settleWaits (advanceAll (queueSpace (offerPlaces 64 n s)))

/-- The end of an event that asked the Dispatcher for an announcement. -/
def closeAsked (r : Asked) : State := closeEvent r.freed r.state

/-! ## A departure whose group asks for an announcement too (R65) -/

/-- R8: the obligation of a group is broken: it is ACTIVE, its stated setting is absent or not its effective setting, it has
neither an announcement entry nor its due flag, and it is not left to events still to act. Where a check had been left to an
entry that is no longer to act, only an entry that carries the effective setting meets it (log 32, log 37). -/
def unmet (left : Bool) (g : GroupNo) (s : State) : Bool :=
  match effectiveOf (s.group g).holding with
  | some e =>
    decide ((s.group g).stated.map (·.setting) ≠ some e) && !(if left then carried g e s else hasAnn g s)
      && !(s.group g).due && !leftToEvents g s && !originLeft g s
  | none => false

/-- R65: a place freed by a departure of a group meets the group's own request, which takes a place where `made` says so, and
a due group: either is taken first (log 12). The answer is whether the due admission is. -/
def dueFirst (made : Bool) (s : State) : Bool × State :=
  if made && (lowestDue s).isSome then drawOrder s else (false, s)

/-- The places still to be offered when a request was taken with `n` places free: one less when it made an entry. -/
def Asked.left (r : Asked) (n : Nat) : Nat := n + r.freed - (if r.made then 1 else 0)

/-- R65: the check of a group whose departures left `n` places free, with the due admission before it where that is taken
first. The number answered is of the places still to be offered. -/
def checkAndOffer (g : GroupNo) (n : Nat) (s : State) : Asked :=
  let d := dueFirst (check g s).made s
  if d.1 then check g (offerPlaces 64 n d.2)
  else
    let r := check g d.2
    ⟨r.state, r.made, r.left n⟩

/-! ## Catch-up requests (R24, R64) -/

/-- R64: the CATCH-UP entry. -/
def catchUpAnn (g : GroupNo) (st : Stated) (origin : Option Port) (count : Count) : Ann :=
  { group := g, content := st.setting, activation := none, flavour := .catchUp, stamp := some st.stamp, started := false
    repeats := 0, done := 0, lastEnd := none, entryCount := count, origin := origin, late := false }

/-- R8, R12: a next stated whose activation count has come is applied before another event of the group is taken, and the
check follows the application, or is left to the events of the group still to act at this crossing (R12, R34, R36; log 32). -/
def bringUp (g : GroupNo) (s : State) : Asked :=
  if nextDue g s then checkUnlessLeft g (applyNext g s) else ⟨s, false, 0⟩

/-- R24: a catch-up request reaches the Group Table, with R12 before it: ignored for an INACTIVE or due group, the check
when the stated setting is absent, else a CATCH-UP for the Dispatcher (R64). -/
def catchUp (g : GroupNo) (origin : Option Port) (s0 : State) : Asked :=
  let b := bringUp g s0
  let s := b.state
  let r := s.group g
  if !isActive r.holding || r.due then b
  else
    match r.stated with
    | none =>
      let c := check g s
      ⟨c.state, c.made, b.freed + c.freed⟩
    | some st =>
      if !hasAnn g s && placeFree s then
        ⟨setQueue (s.disp.queue ++ [.ann (catchUpAnn g st origin s.count)]) s, true, b.freed - 1⟩
      else b

/-! ## The tests of the Schedule List (R31, R32) -/

/-- R31: the reach of every entry: the smaller of the lead window and 65535 slots. -/
def reach (c : Params) : Nat := min c.leadWindow 65535

/-- R31: an entry with activation count `a` is within its reach: the count is at least a - reach - S and less than a. -/
def withinReach (c : Params) (count a : Count) : Bool :=
  decide (a ≤ count + reach c + announceSlots c.broadcastGrade) && decide (count < a)

/-- R31: the count is the one at which the entry comes within its reach. -/
def opensReach (c : Params) (count a : Count) : Bool :=
  decide (a = count + reach c + announceSlots c.broadcastGrade) && decide (count < a)

/-- R32: the conditions of a pre-announcement. -/
def preAnnounceable (e : SchedEntry) (s : State) : Bool :=
  decide (e.mark = .none)
    && s.schedule.all (fun f => decide (f.group ≠ e.group) || decide (e.activation ≤ f.activation))
    && baseOnTop (s.group e.group).holding
    && !hasAnn e.group s && !(s.group e.group).due
    && decide ((s.group e.group).next = none)

/-- R31, R32: one test of an entry: within its reach and pre-announceable, it asks for a NEW timed announcement; if that
is entered its mark becomes QUEUED. From a line reset to the next counted crossing none is asked for (R40, R79). -/
def testEntry (e : SchedEntry) (s : State) : State :=
  if !s.heldBack && withinReach s.conf s.count e.activation && preAnnounceable e s then
    let r := request
      { group := e.group, content := e.setting, activation := some e.activation, origin := some e.origin
        repeats := s.conf.defaultRepeat } s
    if r.made then
      r.state.setSchedule (r.state.schedule.map fun f =>
        if f.group = e.group ∧ f.activation = e.activation then { f with mark := .queued } else f)
    else r.state
  else s

/-- The tests of the entries a selection names, in list order (R31). -/
def testEntries (sel : SchedEntry → Bool) (s : State) : State :=
  (s.schedule.filter sel).foldl (fun s e => testEntry e s) s

/-- R31: an announcement entry of the group left the queue: a test moment of the group's entries. -/
def testGroup (g : GroupNo) (s : State) : State := testEntries (fun e => decide (e.group = g)) s

/-- R70: the withdrawal of the not-started announcement entries of a group that a test names: no notice; the Schedule
List is told of a timed one (R33). -/
def withdraw (g : GroupNo) (sel : Ann → Bool) (s : State) : State × Nat :=
  let goes : Entry → Bool := fun e =>
    match e with
    | .ann a => isNotStarted g (.ann a) && sel a
    | _ => false
  let gone := s.disp.queue.filter goes
  let s1 := setQueue (s.disp.queue.filter fun e => !goes e) s
  (gone.foldl (fun s e =>
    match e with
    | .ann a => moveMark g a.activation .none s
    | _ => s) s1, gone.length)

end Sys2Proof.Machine
end

