-- ==== Sys2Proof/Machine/Routes.lean ====
section
/-! DEFINITION. The Route Cache: lookup at grant (R161), learning and placing (R162 to R164), removal (R165). -/

namespace Sys2Proof.Machine

/-- The place holds an entry for the unit. -/
def holdsUnit (c : RouteCache) (u : UnitNo) (i : Fin 64) : Bool :=
  match c.places.get i with
  | some r => decide (r.unit = u)
  | none => false

/-- The place of the unit's entry, if one is held. -/
def placeOf (c : RouteCache) (u : UnitNo) : Option (Fin 64) := (List.finRange 64).find? (holdsUnit c u)

/-- The unit's entry, if one is held. -/
def routeOf (c : RouteCache) (u : UnitNo) : Option Route := (placeOf c u).bind fun i => c.places.get i

/-- R161: a lookup at a grant: on a hit the last-used index becomes the entry's place; on a miss nothing changes. -/
def lookup (u : UnitNo) (s : State) : Option Route × State :=
  match placeOf s.routes u with
  | some i => (s.routes.places.get i, s.setRoutes { s.routes with lastUsed := some i })
  | none => (none, s)

/-- The lowest-numbered empty place (R163). -/
def emptyPlace (c : RouteCache) : Option (Fin 64) := (List.finRange 64).find? fun i => (c.places.get i).isNone

/-- R164: the places the victim search examines, in turn: from the place after the last-used index, wrapping, short of
the last-used place; places 0 to 63 when the index is none. -/
def searchOrder : Option (Fin 64) → List (Fin 64)
  | none => List.finRange 64
  | some k => (List.range 63).map fun j => Fin.ofNat 64 (k.val + 1 + j)

/-- The place holds an unpinned entry. -/
def isUnpinned (c : RouteCache) (i : Fin 64) : Bool :=
  match c.places.get i with
  | some r => !r.pinned
  | none => false

/-- R164: the victim: the first place examined whose entry is unpinned. -/
def victim (c : RouteCache) : Option (Fin 64) := (searchOrder c.lastUsed).find? (isUnpinned c)

/-- R163, R166: where an entry for a unit that has none is written: the lowest empty place, else the victim's. -/
def newPlace (c : RouteCache) : Option (Fin 64) :=
  match emptyPlace c with
  | some i => some i
  | none => victim c

/-- Writes an entry at a place. -/
def writeRoute (i : Fin 64) (r : Route) (c : RouteCache) : RouteCache := { c with places := c.places.set i (some r) }

/-- R162, R163: learning a candidate: a pinned entry is left, an unpinned one is overwritten in its place, and a unit with
no entry is placed, or discarded when there is no victim. The last-used index is not changed. -/
def learn (cand : Route) (c : RouteCache) : RouteCache :=
  match placeOf c cand.unit with
  | some i => if isUnpinned c i then writeRoute i cand c else c
  | none =>
    match newPlace c with
    | some i => writeRoute i cand c
    | none => c

/-- R165, R145: the removal an UNREACHED ending asks for: the entry is removed when it is held, unpinned and written before
the start of the latest attempt. -/
def removeRoute (u : UnitNo) (start : Count) (c : RouteCache) : RouteCache :=
  match placeOf c u with
  | some i =>
    match c.places.get i with
    | some r =>
      if !r.pinned ∧ r.written < start then
        { places := c.places.set i none, lastUsed := if c.lastUsed = some i then none else c.lastUsed }
      else c
    | none => c
  | none => c

/-- The number of entries held. -/
def heldRoutes (c : RouteCache) : Nat := (List.finRange 64).countP fun i => (c.places.get i).isSome

/-- The number of entries pinned. -/
def pinnedRoutes (c : RouteCache) : Nat :=
  (List.finRange 64).countP fun i =>
    match c.places.get i with
    | some r => r.pinned
    | none => false

end Sys2Proof.Machine
end

