-- ==== Sys2Proof/Machine/Exchanges.lean ====
section
/-! DEFINITION. The Exchange Engine's operations: finding and changing an exchange, its ending (R155, R156), the end and the
abandonment of its frame (R141, R142), the timeout (R144), the answer (R146 to R148), the QUERY comparison (R151) and the
cancel (R153). -/

namespace Sys2Proof.Machine

/-- The live exchange that holds a tag. -/
def exchOf (t : Tag) (s : State) : Option Exchange := s.exch.table.find? fun x => decide (x.tag = t)

/-- Changes the exchange that holds a tag. -/
def updExch (t : Tag) (f : Exchange → Exchange) (s : State) : State :=
  s.setExch { s.exch with table := s.exch.table.map fun x => if x.tag = t then f x else x }

/-- R139: an exchange joins the tail of the ready order. -/
def joinReady (t : Tag) (s : State) : State := s.setExch { s.exch with ready := s.exch.ready ++ [t] }

/-- R139: an exchange leaves the ready order. -/
def leaveReady (t : Tag) (s : State) : State :=
  s.setExch { s.exch with ready := s.exch.ready.filter fun x => decide (x ≠ t) }

/-- R156: the ORDER ENDED notice of an exchange. -/
def exchNotice (x : Exchange) (e : Ending) (r : Option Reply) (c : Option Comparison) : NoticeBody :=
  .orderEnded
    { reference := x.reference, unit := x.unit, kind := x.kind, ending := e, tag := some x.tag, attempts := x.attempts
      lastGrade := x.attempt.map (·.grade), retries := some x.retries, defers := some x.defers, reply := r, comparison := c }

/-- R156: the ORDER ENDED notice of an order that ended CANCELLED in the queue (R76, R79). -/
def orderNotice (o : OrderEntry) : NoticeBody :=
  .orderEnded
    { reference := o.reference, unit := o.unit, kind := o.kind, ending := .cancelled, tag := none, attempts := 0
      lastGrade := none, retries := none, defers := none, reply := none, comparison := none }

/-- R155, steps 2 and 3: the notice, and the exchange leaves the table and the ready order. -/
def dropExch (x : Exchange) (e : Ending) (r : Option Reply) (c : Option Comparison) (s : State) : State :=
  let s1 := notify x.port (exchNotice x e r c) s
  s1.setExch
    { table := s1.exch.table.filter fun y => decide (y.tag ≠ x.tag), tagCounter := s1.exch.tagCounter
      ready := s1.exch.ready.filter fun t => decide (t ≠ x.tag) }

/-- R145, R165: the removal of the unit's route, with the start count of the latest attempt. -/
def forgetRoute (x : Exchange) (s : State) : State :=
  match x.attempt with
  | some a => s.setRoutes (removeRoute x.unit a.start s.routes)
  | none => s

/-- R155: an exchange ends otherwise than by an accepted QUERY. The freed places are those the caller closes with. -/
def endExch (x : Exchange) (e : Ending) (s : State) : State :=
  dropExch x e none none (if e = .unreached then forgetRoute x s else s)

/-- R140 to R142, R144, R149: an exchange becomes READY at the tail of the ready order. -/
def toReady (x : Exchange) (f : Exchange → Exchange) (s : State) : State :=
  joinReady x.tag (updExch x.tag (fun y => f { y with state := .ready }) s)

/-- R143: the answer window of the exchange's attempt, with the margin in force. -/
def windowOf (x : Exchange) (a : Attempt) (s : State) : Nat := answerWindowOf x.kind a.grade a.relays s.conf.answerMargin

/-- R141: the frame of an exchange in SENDING ends whole at `e`. -/
def exchWholeEnd (t : Tag) (e : Count) (s : State) : State :=
  match exchOf t s with
  | some x =>
    let x1 := { x with attempts := x.attempts + 1 }
    if x.cancelPending then endExch x1 .cancelled s
    else
      updExch t (fun _ =>
        { x1 with state := .waiting, deadline := x.attempt.map fun a => e + windowOf x a s }) s
  | none => s

/-- R142: the frame of an exchange in SENDING is abandoned. -/
def exchAbandoned (t : Tag) (s : State) : State :=
  match exchOf t s with
  | some x => if x.cancelPending then endExch x .cancelled s else toReady x id s
  | none => s

/-- R144: the retries left after a timeout in PRESENT, or none when the exchange ends UNREACHED. -/
def retryLess : Retries → Option Retries
  | .unlimited => some .unlimited
  | .limited 0 => none
  | .limited (n + 1) => some (.limited n)

/-- R144: the deadline of an exchange in WAITING. -/
def timeout (x : Exchange) (s : State) : State :=
  if s.time.state = .present then
    match retryLess x.retries with
    | some r => toReady x (fun y => { y with deadline := none, retries := r, fallback := min 2 (y.fallback + 1) }) s
    | none => endExch { x with deadline := none } .unreached s
  else toReady x (fun y => { y with deadline := none }) s

/-- An accepted ANSWER as the Receiver hands it on (R126, R146): source, tag, outcome, the group, setting and stamp of the
8-byte form (absent in the 2-byte form), the grade, and the completion count. -/
structure Answer where
  source : UnitNo
  tag : Tag
  outcome : Nat
  reply : Option Reply
  grade : Grade
  count : Count
  deriving DecidableEq, Repr

/-- R151: the comparison of a reply with the record of the expected group; the first line that holds. -/
def compareReply (g : GroupNo) (r : Reply) (s : State) : Comparison :=
  let rec1 := s.group g
  if r.group ≠ g.val then .foreign
  else
    match isActive rec1.holding, rec1.stated with
    | true, some st => if r.setting = st.setting ∧ r.stamp = st.stamp then .same else .behind
    | _, _ => .unordered

/-- R147, R151, R152: an accepted QUERY ends: the comparison, the catch-up a BEHIND requests, then the notice. -/
def acceptQuery (x : Exchange) (g : GroupNo) (r : Reply) (s : State) : Asked :=
  let c := compareReply g r s
  let a : Asked := if c = .behind then catchUp g none s else ⟨s, false, 0⟩
  ⟨dropExch x .accepted (some r) (some c) a.state, a.made, a.freed⟩

/-- R148: a DEFER. -/
def deferExch (x : Exchange) (s : State) : State :=
  if x.defers = 0 then endExch x .deferredOut s
  else
    leaveReady x.tag (updExch x.tag (fun y =>
      { y with
        state := .held, defers := y.defers - 1, deadline := none, holdUntil := some (s.count + s.conf.holdInterval) }) s)

/-- R146 to R148: an ANSWER reaches the Exchange Engine. It is dropped when no live exchange holds the tag, the source is
another unit, the exchange is in SENDING, or an ACCEPT has the wrong form. -/
def takeAnswer (a : Answer) (s : State) : Asked :=
  match exchOf a.tag s with
  | none => ⟨s, false, 0⟩
  | some x =>
    if x.unit ≠ a.source ∨ x.state = .sending then ⟨s, false, 0⟩
    else
      match a.outcome with
      | 1 =>
        match x.kind, a.reply with
        | .query g, some r => acceptQuery x g r s
        | .query _, none => ⟨s, false, 0⟩
        | .assign _, none => ⟨endExch x .accepted s, false, 0⟩
        | .test, none => ⟨endExch x .accepted s, false, 0⟩
        | _, some _ => ⟨s, false, 0⟩
      | 2 => ⟨endExch x .rejected s, false, 0⟩
      | 3 => ⟨deferExch x s, false, 0⟩
      | _ => ⟨s, false, 0⟩

/-- R153: the exchange is one the CANCL of a port with a reference names. -/
def cancelNames (p : Port) (ref : Byte) (x : Exchange) : Bool := decide (x.port = p) && decide (x.reference = ref)

/-- R153: a CANCL reaches an exchange: in SENDING cancel-pending is set, in every other state it ends CANCELLED. -/
def cancelExch (x : Exchange) (s : State) : State :=
  match x.state with
  | .sending => updExch x.tag (fun y => { y with cancelPending := true }) s
  | .ready => endExch x .cancelled s
  | .waiting => endExch x .cancelled s
  | .held => endExch x .cancelled s

end Sys2Proof.Machine
end

