-- ==== Sys2Proof/Machine/GroupRequests.lean ====
section
/-! DEFINITION. The requests of the Group Table: SBASE, PUSHL, DROPL, GOFF, GREAD, GWAIT (R13 to R22), and the timers it owns:
GWAIT_LIMIT (R22), LAYER_EXPIRY (R23), APPLICATION_OF_NEXT_STATED (R12). -/

namespace Sys2Proof.Machine

/-! ## Shared parts -/

/-- R13: the outcome of a request that was not refused. -/
def doneOr (adjusted : Bool) : ReqOutcome := if adjusted then .adjusted else .done

/-- R14: the RANGE test of a request that carries a setting: it is refused (none), or goes on with a setting, adjusted or
not. -/
def testRange (p : Port) (k : ReqKind) (g : GroupNo) (st : Setting) (s : State) : State × Option (Setting × Bool) :=
  if st.inRange then (s, some (st, false))
  else
    let s1 := raiseCond p .range k g s
    if masked p .range s then (s1, some (st.clamp, true)) else (refuse p k .range s1, none)

/-- R15, R29, R34: the group's base layer is replaced, or the INACTIVE group becomes ACTIVE with it. -/
def setBase (g : GroupNo) (st : Setting) (origin : LayerOrigin) (s : State) : State :=
  updGroup g (fun r =>
    match r.holding with
    | .inactive =>
      { r with holding := .active { setting := st, origin := origin } [], stated := none, next := none }
    | .active _ os => { r with holding := .active { setting := st, origin := origin } os }) s

/-- The layer list with other overrides (R4). -/
def Holding.withOverrides : Holding → List Override → Holding
  | .inactive, _ => .inactive
  | .active b _, os => .active b os

/-- Replaces the overrides of a group. -/
def setOverrides (g : GroupNo) (os : List Override) (s : State) : State :=
  updGroup g (fun r => { r with holding := r.holding.withOverrides os }) s

/-- The end of a request that asked for an announcement: the event is closed, then the response is handed back. -/
def finish (p : Port) (k : ReqKind) (o : ReqOutcome) (r : Asked) : State := reply p k o .empty (closeAsked r)

/-! ## SBASE (R15) -/

/-- R15: the Group Table acts on an SBASE. -/
def actSbase (p : Port) (fields : List Byte) (s : State) : State :=
  match readSbase fields with
  | none => malformed p .sbase s
  | some (g, st) =>
    match testRange p .sbase g st s with
    | (s1, none) => s1
    | (s1, some (st1, adj)) => finish p .sbase (doneOr adj) (check g (setBase g st1 (.port p) s1))

/-- SBASE Set Base (R15). -/
def execSbase (p : Port) (fields : List Byte) (s : State) : Out :=
  .next (requestStep p .sbase fields (actSbase p fields) s)

/-! ## PUSHL (R16, R17) -/

/-- R16: the new override. -/
def pushed (p : Port) (f : PushFields) (st : Setting) (count : Count) : Override :=
  { cls := f.cls, setting := st, origin := p, expiry := f.expiry, pushed := count }

/-- R17: a LAYER ENDED notice to a layer's origin port. -/
def layerEnded (reason : LayerEnd) (g : GroupNo) (o : Override) (s : State) : State :=
  notify o.origin (.layerEnded reason g o.cls o.setting) s

/-- R17: the new layer ranks below every override held. -/
def ranksLowest (c : OverrideClass) (os : List Override) : Bool := os.all fun o => decide (classNo c < classNo o.cls)

/-- R17: the lowest-ranked override is evicted, with its notice, and the new one is inserted. -/
def evict (g : GroupNo) (o : Override) (os : List Override) (s : State) : State :=
  let s1 :=
    match os.getLast? with
    | some low => layerEnded .evicted g low s
    | none => s
  setOverrides g (insertOverride o os.dropLast) s1

/-- R16, R17: the insertion of a layer with the setting after RANGE. -/
def insertLayer (p : Port) (f : PushFields) (st : Setting) (adj : Bool) (s : State) : State :=
  let os := overridesOf (s.group f.group).holding
  let o := pushed p f st s.count
  if os.length < 7 then
    finish p .pushl (doneOr adj) (check f.group (setOverrides f.group (insertOverride o os) s))
  else
    let s1 := raiseCond p .overflow .pushl f.group s
    if masked p .overflow s then
      if ranksLowest f.cls os then reply p .pushl .adjusted .empty s1
      else finish p .pushl .adjusted (check f.group (evict f.group o os s1))
    else refuse p .pushl .overflow s1

/-- R16: the Group Table acts on a PUSHL. -/
def actPushl (p : Port) (fields : List Byte) (s : State) : State :=
  match readPushl fields with
  | none => malformed p .pushl s
  | some f =>
    if isActive (s.group f.group).holding then
      match testRange p .pushl f.group f.setting s with
      | (s1, none) => s1
      | (s1, some (st, adj)) =>
        if expiryPast f.expiry s1.count then
          let s2 := raiseCond p .past .pushl f.group s1
          if masked p .past s1 then reply p .pushl .adjusted .empty s2 else refuse p .pushl .past s2
        else insertLayer p f st adj s1
    else reply p .pushl .inactive .empty s

/-- PUSHL Push Layer (R16). -/
def execPushl (p : Port) (fields : List Byte) (s : State) : Out :=
  .next (requestStep p .pushl fields (actPushl p fields) s)

/-! ## DROPL (R18) -/

/-- R18: the override is one a DROPL of the port may remove. -/
def droppable (p : Port) (c : Option OverrideClass) (o : Override) : Bool :=
  decide (o.origin = p)
    && (match c with
        | some c => decide (o.cls = c)
        | none => true)

/-- R18: the Group Table acts on a DROPL. The overrides run top down, so the first is the highest-ranked. -/
def actDropl (p : Port) (fields : List Byte) (s : State) : State :=
  match readDropl fields with
  | none => malformed p .dropl s
  | some (g, c) =>
    if isActive (s.group g).holding then
      let os := overridesOf (s.group g).holding
      if os.any (droppable p c) then
        finish p .dropl .done (check g (setOverrides g (removeFirst (droppable p c) os) s))
      else
        let s1 := raiseCond p .underflow .dropl g s
        if masked p .underflow s then reply p .dropl .adjusted .empty s1 else refuse p .dropl .underflow s1
    else reply p .dropl .inactive .empty s

/-- DROPL Drop Layer (R18). -/
def execDropl (p : Port) (fields : List Byte) (s : State) : Out :=
  .next (requestStep p .dropl fields (actDropl p fields) s)

/-! ## GOFF (R19) -/

/-- R19: the group's record after GOFF, with R12 before it (log 34); the stamp counter is kept. -/
def deactivate (g : GroupNo) (s : State) : State :=
  updGroup g (fun r => { r with holding := .inactive, stated := none, due := false }) (clearNext g (applyNext g s))

/-- R19, R22: a GWAIT of a port for the group is answered UNSETTLED. -/
def endWaitOn (p : Port) (g : GroupNo) (s : State) : State :=
  match s.waits.get p with
  | some w => if w.group = g then answerWait p g false s else s
  | none => s

/-- R19: the Group Table acts on a GOFF. -/
def actGoff (p : Port) (fields : List Byte) (s : State) : State :=
  match readGroupOnly fields with
  | none => malformed p .goff s
  | some g =>
    if isActive (s.group g).holding then
      let w := withdraw g (fun _ => true) (deactivate g s)
      let c := cutShort g w.1
      reply p .goff .done .empty (closeEvent (w.2 + c.2) (endWaitOn (otherPort p) g c.1))
    else reply p .goff .inactive .empty s

/-- GOFF Deactivate Group (R19). -/
def execGoff (p : Port) (fields : List Byte) (s : State) : Out :=
  .next (requestStep p .goff fields (actGoff p fields) s)

/-! ## GREAD (R20) and GWAIT (R21) -/

/-- R20: the Group Table acts on a GREAD. -/
def actGread (p : Port) (fields : List Byte) (s : State) : State :=
  match readGread fields with
  | none => malformed p .gread s
  | some (g, start) => reply p .gread .done (.group (readGroup g start s)) s

/-- GREAD Read Group (R20). -/
def execGread (p : Port) (fields : List Byte) (s : State) : Out :=
  .next (requestStep p .gread fields (actGread p fields) s)

/-- R21: the Group Table acts on a GWAIT. A wait kept open leaves the port WORKING. A next stated whose count has come is not
applied by it, as R12 could be read to ask, and no check is made: the record is answered and judged as it stands, which is the
model's choice (log 35). -/
def actGwait (p : Port) (fields : List Byte) (s : State) : State :=
  match readGroupOnly fields with
  | none => malformed p .gwait s
  | some g =>
    if isActive (s.group g).holding then
      if settled g s then reply p .gwait .done (.group (readGroup g 0 s)) s
      else s.setWaits (s.waits.set p (some { group := g, limit := s.count + 65535 }))
    else reply p .gwait .inactive (.group (readGroup g 0 s)) s

/-- GWAIT Read Group Settled (R21). -/
def execGwait (p : Port) (fields : List Byte) (s : State) : Out :=
  .next (requestStep p .gwait fields (actGwait p fields) s)

/-! ## The timers of the Group Table -/

/-- R22: the limit count of a port's wait is reached. The record is answered as it stands, an overdue next stated with it
(log 35). -/
def limitWait (p : Port) (s : State) : State :=
  match s.waits.get p with
  | some w => if w.limit ≤ s.count then answerWait p w.group false s else s
  | none => s

/-- GWAIT_LIMIT (R22). -/
def execGwaitLimit (p : Port) (s : State) : Out := .next (limitWait p s)

/-- R23: the overrides of a group whose expiry is reached leave, each with its notice, and the check runs once, or is left to
the activation that is owed (R36; log 32, log 37). -/
def expireLayers (g : GroupNo) (s : State) : State :=
  let os := overridesOf (s.group g).holding
  if os.any (isExpired s.count) then
    let s1 := setOverrides g (os.filter fun o => !isExpired s.count o) s
    closeAsked (checkAfter g ((os.filter (isExpired s.count)).foldl (fun s o => layerEnded .expired g o s) s1))
  else s

/-- LAYER_EXPIRY (R23). -/
def execLayerExpiry (g : GroupNo) (s : State) : Out := .next (expireLayers g s)

/-- R12: next stated's activation count is reached: it is applied and the check follows, at once or at the events that are owed
(log 32, log 37). -/
def applyDue (g : GroupNo) (s : State) : State := if nextDue g s then closeAsked (checkAfter g s) else s

/-- APPLICATION_OF_NEXT_STATED (R12). -/
def execApplicationOfNextStated (g : GroupNo) (s : State) : Out := .next (applyDue g s)

end Sys2Proof.Machine
end

