-- ==== Sys2Proof/Machine/DispatchRequests.lean ====
section
/-! DEFINITION. The requests of the Dispatcher: ORDER, FENCE, CANCL, REFSH (R71, R74, R76, R77, R153), its timers
SETTLE_INTERVAL and REPEAT_SPACING (R66, R89), and the timers of the Exchange Engine: ANSWER_WINDOW (R144), HOLD (R149). -/

namespace Sys2Proof.Machine

/-! ## ORDER (R71) -/

/-- R72: a refusal with FULL sets the port's QUEUE SPACE mark. -/
def refuseFull (p : Port) (k : ReqKind) (s : State) : State :=
  reply p k .full .empty (s.setDisp { s.disp with spaceMarks := s.disp.spaceMarks.set p true })

/-- R71: the repeat count given is ignored; one other than 0 makes the outcome ADJUSTED. -/
def repeatIgnored (r : Option Nat) : Bool :=
  match r with
  | some n => decide (n ≠ 0)
  | none => false

/-- R58, R71: the order entry. -/
def orderEntry (p : Port) (f : OrderFields) : OrderEntry :=
  { unit := f.unit, kind := f.kind, port := p, reference := f.reference }

/-- R71: the Dispatcher acts on an ORDER. -/
def actOrder (p : Port) (fields : List Byte) (s : State) : State :=
  match readOrder fields with
  | none => malformed p .order s
  | some f =>
    if orderRoom s then
      reply p .order (doneOr (repeatIgnored f.repeats)) .empty
        (closeEvent 0 (setQueue (s.disp.queue ++ [.order (orderEntry p f)]) s))
    else refuseFull p .order s

/-- ORDER Issue Order (R71). -/
def execOrder (p : Port) (fields : List Byte) (s : State) : Out :=
  .next (requestStep p .order fields (actOrder p fields) s)

/-! ## FENCE (R74) -/

/-- R74: every live exchange has its fence mark set. -/
def markFences (s : State) : State :=
  s.setExch { s.exch with table := s.exch.table.map fun x => { x with fenceMark := true } }

/-- R74: the Dispatcher acts on a FENCE. -/
def actFence (p : Port) (fields : List Byte) (s : State) : State :=
  match readNothing fields with
  | none => malformed p .fence s
  | some _ =>
    if s.disp.queue.getLast? = some (.fence p) then reply p .fence .done .empty s
    else if orderRoom s then
      reply p .fence .done .empty (closeEvent 0 (markFences (setQueue (s.disp.queue ++ [.fence p]) s)))
    else refuseFull p .fence s

/-- FENCE Place Fence (R74). -/
def execFence (p : Port) (fields : List Byte) (s : State) : Out :=
  .next (requestStep p .fence fields (actFence p fields) s)

/-! ## CANCL (R76, R153) -/

/-- R76: the queue entry is an order that the CANCL names. -/
def namesOrder (p : Port) (ref : Byte) : Entry → Bool
  | .order o => decide (o.port = p) && decide (o.reference = ref)
  | _ => false

/-- R76: a queued order ended CANCELLED gives its notice. -/
def noticeQueued (e : Entry) (s : State) : State :=
  match e with
  | .order o => notify o.port (orderNotice o) s
  | _ => s

/-- R76: the first queued order named ends CANCELLED: it leaves, its notice is queued, its place is offered and room is tested
(R65, R72). -/
def cancelOne (p : Port) (ref : Byte) (s : State) : State :=
  match s.disp.queue.find? (namesOrder p ref) with
  | some e => afterFreed 1 (noticeQueued e (setQueue (removeFirst (namesOrder p ref) s.disp.queue) s))
  | none => s

/-- R76: `n` queued orders named end CANCELLED, one after another from the head. -/
def cancelQueued (p : Port) (ref : Byte) : Nat → State → State
  | 0, s => s
  | n + 1, s => cancelQueued p ref n (cancelOne p ref s)

/-- R153, R155: the live exchanges named are cancelled, each ending whole, with the moves and fence departures it allows, before
the next. -/
def cancelLive (p : Port) (ref : Byte) (s : State) : State :=
  (s.exch.table.filter (cancelNames p ref)).foldl (fun s x => advanceAll (cancelExch x s)) s

/-- R76: the Dispatcher acts on a CANCL (log 23). -/
def actCancl (p : Port) (fields : List Byte) (s : State) : State :=
  match readByte fields with
  | none => malformed p .cancl s
  | some ref =>
    let n := s.disp.queue.countP (namesOrder p ref)
    if n = 0 ∧ s.exch.table.any (cancelNames p ref) = false then reply p .cancl .notFound .empty s
    else reply p .cancl .done .empty (closeEvent 0 (cancelLive p ref (advanceAll (cancelQueued p ref n s))))

/-- CANCL Cancel Order (R76). -/
def execCancl (p : Port) (fields : List Byte) (s : State) : Out :=
  .next (requestStep p .cancl fields (actCancl p fields) s)

/-! ## REFSH (R77) -/

/-- R77: a CATCH-UP finds all 16 places held. -/
def refreshFull (g : GroupNo) (s0 : State) : Bool :=
  let s := (bringUp g s0).state
  !(s.group g).due && (s.group g).stated.isSome && !hasAnn g s && !placeFree s

/-- R77: the Dispatcher acts on a REFSH. -/
def actRefsh (p : Port) (fields : List Byte) (s : State) : State :=
  match readGroupOnly fields with
  | none => malformed p .refsh s
  | some g =>
    if isActive (s.group g).holding then
      finish p .refsh (if refreshFull g s then .full else .done) (catchUp g (some p) s)
    else reply p .refsh .inactive .empty s

/-- REFSH Refresh Group (R77). -/
def execRefsh (p : Port) (fields : List Byte) (s : State) : Out :=
  .next (requestStep p .refsh fields (actRefsh p fields) s)

/-! ## The timers of the Dispatcher: they change no stored state; R66 reads the counts (log 9) -/

/-- SETTLE_INTERVAL (R66): the entry meets its settle condition from this count on. -/
def execSettleInterval (_place : Nat) (s : State) : Out := .next s

/-- REPEAT_SPACING (R89): the entry meets its spacing condition from this count on. -/
def execRepeatSpacing (_place : Nat) (s : State) : Out := .next s

/-! ## The timers of the Exchange Engine -/

/-- A stored count is reached (R51; log 2). -/
def reached (c : Option Count) (count : Count) : Bool :=
  match c with
  | some c => decide (c ≤ count)
  | none => false

/-- R144: the deadline of the exchange that holds a tag. -/
def deadline (t : Tag) (s : State) : State :=
  match exchOf t s with
  | some x => if x.state = .waiting ∧ reached x.deadline s.count then closeEvent 0 (timeout x s) else s
  | none => s

/-- ANSWER_WINDOW (R144). -/
def execAnswerWindow (t : Tag) (s : State) : Out := .next (deadline t s)

/-- R149: the hold-until of the exchange that holds a tag. -/
def endHold (t : Tag) (s : State) : State :=
  match exchOf t s with
  | some x =>
    if x.state = .held ∧ reached x.holdUntil s.count then toReady x (fun y => { y with holdUntil := none }) s else s
  | none => s

/-- HOLD (R149). -/
def execHold (t : Tag) (s : State) : Out := .next (endHold t s)

end Sys2Proof.Machine
end

