-- ==== Sys2Proof/Machine/Line.lean ====
section
/-! DEFINITION. The Line Arbiter and the Transmitter: what is heard (R108), the claims and their grants (R66 to R68, R82,
R109 to R112, R128, R140), the whole end of a frame (R87, R88, R114), its abandonment (R91, R115, R117), the backoff
(R116) and line reset (R119). -/

namespace Sys2Proof.Machine

/-! ## What is on the line (R108) -/

/-- The carrier that a phase's receive state follows is heard: it was detected and has not ended (R108, R122). -/
def heardOn : PhaseState → Bool
  | .quiet => false
  | .assembling _ none => true
  | .assembling _ (some _) => false
  | .ignoring => true

/-- A carrier is heard on a phase: the one followed, or another behind it (R108). -/
def phaseHeard (ph : Phase) (s : State) : Bool := heardOn (s.rx.phases.get ph) || s.rx.again.get ph

/-- A carrier is heard on some phase. -/
def carrierHeard (s : State) : Bool := phaseHeard .L1 s || phaseHeard .L2 s || phaseHeard .L3 s

/-- The part's own carrier is present: a frame is on the line and its last slot has not closed (R108, R114). -/
def ownCarrier (s : State) : Bool :=
  match s.tx.state, s.tx.frame with
  | .sending, some f => decide (s.count < f.endCount)
  | _, _ => false

/-- A carrier begins to be heard on a phase whose frame is not received: a QUIET phase becomes IGNORING (R122); on a phase
whose frame's carrier has ended it is kept behind that frame (log 17); on any other a carrier is heard already. -/
def hearCarrier (ph : Phase) (s : State) : State :=
  match s.rx.phases.get ph with
  | .quiet => s.setRx { s.rx with phases := s.rx.phases.set ph .ignoring }
  | .assembling _ (some _) => s.setRx { s.rx with again := s.rx.again.set ph true }
  | _ => s

/-- R112: the couplers a frame drives. -/
def drives : FramePhase → Phase → Bool
  | .all, _ => true
  | .one q, ph => decide (q = ph)

/-! ## The claims (R66, R67, R110, R128, R139) -/

/-- R66: the announcement entry is eligible at the present count, but for its place in the queue. -/
def eligible (s : State) (a : Ann) : Bool :=
  (if a.done = 0 then decide (a.entryCount + s.conf.settleInterval ≤ s.count)
    else
      match a.lastEnd with
      | some e => decide (e + s.conf.repeatSpacing ≤ s.count)
      | none => true)
  && (match a.activation with
      | some x => decide (x ≤ s.count + announceSlots s.conf.broadcastGrade + 65535)
      | none => true)

/-- R67: the place, counted from 0, of the oldest eligible announcement entry in the look-ahead window and not behind a
fence. -/
def offerIn (s : State) : Nat → List Entry → Option Nat
  | 0, _ => none
  | _ + 1, [] => none
  | k + 1, e :: es =>
    match e with
    | .fence _ => none
    | .order _ => (offerIn s k es).map (· + 1)
    | .ann a => if eligible s a then some 0 else (offerIn s k es).map (· + 1)

/-- R67: the Dispatcher's offer: its place and its entry. -/
def offer (s : State) : Option (Nat × Ann) :=
  match offerIn s 4 s.disp.queue with
  | some i =>
    match s.disp.queue[i]? with
    | some (.ann a) => some (i, a)
    | _ => none
  | none => none

/-- R128: the receipt list's claim: the oldest receipt that is not on the line. -/
def receiptClaim (s : State) : Option Receipt := s.rx.receipts.find? fun r => !r.onLine

/-- R139: the Exchange Engine's claim: the exchange at the head of the ready order. -/
def exchangeClaim (s : State) : Option Exchange :=
  match s.exch.ready with
  | t :: _ => exchOf t s
  | [] => none

/-- R109: the line can be claimed at the latest counted crossing, the Transmitter having acted on it. -/
def canClaim (s : State) : Bool :=
  decide (s.time.state = .present) && decide (s.conf.station ≠ 0) && decide (s.tx.state = .idle) && s.arb.quiet
    && !carrierHeard s

/-! ## Grants (R68, R82, R111, R112, R128, R140) -/

/-- R111, R112, R113: the frame is handed to the Transmitter, which begins SENDING at the present count; the holder is set. -/
def putOnLine (h : Holder) (kind : FrameKind) (phase : FramePhase) (grade : Grade) (body : List Byte) (s : State) : State :=
  let n := slotsOf body.length grade
  (s.setTx
    { s.tx with
      state := .sending
      frame := some
        { kind := kind, phase := phase, grade := grade, start := s.count, slots := n, endCount := s.count + n, body := body }
      }).setArb { s.arb with holder := h, busy := true }

/-- R68: the stamp of a transmission. A NEW entry with no stamp takes the group's advanced counter, and next stated is made
absent (R7, R11), with R12 before it (log 34). -/
def takeStamp (a : Ann) (s : State) : Stamp × State :=
  match a.stamp with
  | some x => (x, s)
  | none =>
    let x := (s.group a.group).stampCounter + 1
    (x, clearNext a.group (applyNext a.group (updGroup a.group (fun r => { r with stampCounter := x }) s)))

/-- R84: the countdown of a transmission that ends at `e`. -/
def countdownOf (activation : Option Count) (e : Count) : Nat :=
  match activation with
  | some a => a - e
  | none => 0

/-- R68, R82, R83: the grant of the offer at place `i` of the queue. -/
def grantAnn (i : Nat) (a : Ann) (s : State) : State :=
  let g := s.conf.broadcastGrade
  let n := announceSlots g
  let cd := countdownOf a.activation (s.count + n)
  let r := takeStamp a s
  let s1 := setQueue (r.2.disp.queue.set i (.ann { a with started := true, stamp := some r.1 })) r.2
  let s2 := s1.setDisp
    { s1.disp with
      sending := some
        { group := a.group, start := s.count, grade := g, slots := n, endCount := s.count + n, hop := s.conf.broadcastHop
          stamp := r.1, countdown := cd } }
  putOnLine (.announcement a.group) .announce .all g
    (buildBody .announce allUnits s.conf.station s.conf.broadcastHop [] (announcePayload a.group r.1 cd a.content)) s2

/-- What a lookup gives an ORDER frame: relay path, phase and grade (R112, R140). -/
def routedAs (r : Option Route) (fallback : Nat) : List UnitNo × FramePhase × Grade :=
  match r with
  | some r => (r.path, .one r.phase, raiseGrade r.grade fallback)
  | none => ([], .all, .g3)

/-- R140: the grant of an exchange: it leaves the ready order, its unit is looked up, its attempt is fixed, and its ORDER
frame goes on the line. -/
def grantExch (x : Exchange) (s : State) : State :=
  let l := lookup x.unit s
  let p := routedAs l.1 x.fallback
  let body := buildBody .order x.unit s.conf.station 0 p.1 (orderPayload x.tag x.kind)
  let att : Attempt :=
    { grade := p.2.2, relays := p.1.length, start := s.count, endCount := s.count + slotsOf body.length p.2.2 }
  putOnLine (.exchange x.tag) .order p.2.1 p.2.2 body
    (leaveReady x.tag (updExch x.tag (fun y => { y with state := .sending, attempt := some att }) l.2))

/-- The receipt of a unit and report number (R131). -/
def isReceipt (u : UnitNo) (n : Byte) (r : Receipt) : Bool := decide (r.unit = u) && decide (r.number = n)

/-- The on-the-line field of one receipt is changed (R128). -/
def markReceipt (u : UnitNo) (n : Byte) (b : Bool) (s : State) : State :=
  s.setRx { s.rx with receipts := s.rx.receipts.map fun r => if isReceipt u n r then { r with onLine := b } else r }

/-- R112: the phase of a RECEIPT, from the lookup at its grant. -/
def receiptPhase (r : Option Route) : FramePhase :=
  match r with
  | some r => .one r.phase
  | none => .all

/-- R112, R128: the grant of a receipt. -/
def grantReceipt (r : Receipt) (s : State) : State :=
  let l := lookup r.unit s
  putOnLine (.receipt r.unit r.number) .receipt (receiptPhase l.1) r.grade
    (buildBody .receipt r.unit s.conf.station 0 r.path [r.number]) (markReceipt r.unit r.number true l.2)

/-- R110: the first claim found is granted: receipt list, Exchange Engine, Dispatcher. -/
def grant (s : State) : State :=
  match receiptClaim s with
  | some r => grantReceipt r s
  | none =>
    match exchangeClaim s with
    | some x => grantExch x s
    | none =>
      match offer s with
      | some (i, a) => grantAnn i a s
      | none => s

/-! ## The backoff (R116) -/

/-- R116: at the backoff end, in PRESENT, the Transmitter becomes IDLE. -/
def endBackoff (s : State) : State :=
  match s.tx.state, s.tx.backoffEnd with
  | .backoff, some b =>
    if b ≤ s.count ∧ s.time.state = .present then s.setTx { s.tx with state := .idle, backoffEnd := none } else s
  | _, _ => s

/-! ## The claims of a crossing (R109, R110) -/

/-- R109, R110: the claims of the latest counted crossing are judged, once; the Transmitter acts on the crossing first. -/
def judgeClaims (s : State) : State :=
  let s1 := endBackoff s
  if s1.arb.claimOpen then
    let s2 := s1.setArb { s1.arb with claimOpen := false }
    if canClaim s2 then grant s2 else s2
  else s1

/-! ## The whole end of a frame (R87, R88, R114, R128, R141) -/

/-- R10: the record of the group after a completion whose last transmission ended at `e`. A next stated whose count has come is
applied before it (R12; log 34). -/
def completionReport (a : Ann) (e : Count) (s0 : State) : State :=
  let s := applyNext a.group s0
  let st : Stamp := a.stamp.getD 0
  match a.activation with
  | none => updGroup a.group (fun r => { r with stated := some { setting := a.content, stamp := st } }) s
  | some v =>
    if e < v then
      updGroup a.group (fun r => { r with next := some { setting := a.content, stamp := st, activation := v } }) s
    else
      clearNext a.group (updGroup a.group (fun r => { r with stated := some { setting := a.content, stamp := st } }) s)

/-- R28, R33: what a completion at `e` makes of a linked mark. -/
def completedMark (activation : Option Count) (e : Count) : Mark :=
  match activation with
  | some v => if e < v then .completed else .none
  | none => .none

/-- R96: the reason of a completion. -/
def completionReason (a : Ann) : EndReason := if a.late then .completedLate else .completed

/-- R88: the Schedule List's report of a completed entry: the mark, then the test of the group's entries. -/
def tellSchedule (a : Ann) (e : Count) (s : State) : State :=
  testGroup a.group (moveMark a.group a.activation (completedMark a.activation e) s)

/-- R88: the reports of a completed entry, which has left the queue: the Group Table with its check, the Schedule List, the
notice, then the freed place (log 13); or, where a due admission is taken before the check, the notice and the offer before
both (R65; log 12). A check that an activation still to act makes needless is left to it (R28; log 32). -/
def completeAnn (a : Ann) (e : Count) (s : State) : State :=
  let told := notifyOrigin a.origin (annNotice a (completionReason a))
  let c := completionReport a e s
  let d := dueFirst (checkCompleted a.group c).made c
  if d.1 then
    let r := checkCompleted a.group (offerPlaces 64 1 (told d.2))
    closeDeparture r.freed (tellSchedule a e r.state)
  else
    let r := checkCompleted a.group d.2
    closeDeparture (r.left 1) (told (tellSchedule a e r.state))

/-- R84, R86: the transmission that ends at `e` is late. -/
def isLate (activation : Option Count) (e : Count) : Bool :=
  match activation with
  | some v => decide (v ≤ e)
  | none => false

/-- R87, steps 2 to 4: the entry after a whole transmission that ended at `e`. -/
def countTransmission (a : Ann) (e : Count) : Ann :=
  { a with done := a.done + 1, lastEnd := some e, late := a.late || isLate a.activation e }

/-- The place, counted from 0, of the in-flight announcement entry of a group, with the entry. -/
def inFlightAt (g : GroupNo) : List Entry → Option (Nat × Ann)
  | [] => none
  | e :: es =>
    match e with
    | .ann a => if isInFlight g (.ann a) then some (0, a) else (inFlightAt g es).map fun x => (x.1 + 1, x.2)
    | _ => (inFlightAt g es).map fun x => (x.1 + 1, x.2)

/-- R87: the transmission in progress ends whole. -/
def annWholeEnd (s : State) : State :=
  match s.disp.sending with
  | none => s
  | some t =>
    let s1 := s.setDisp { s.disp with sending := none }
    match inFlightAt t.group s.disp.queue with
    | none => s1
    | some (i, a) =>
      let a1 := countTransmission a t.endCount
      if a.repeats = 0 then completeAnn a1 t.endCount (setQueue (s.disp.queue.eraseIdx i) s1)
      else setQueue (s.disp.queue.set i (.ann { a1 with repeats := a.repeats - 1 })) s1

/-- R128: a receipt leaves the list at the whole end of its frame. -/
def dropReceipt (u : UnitNo) (n : Byte) (s : State) : State :=
  s.setRx { s.rx with receipts := removeFirst (isReceipt u n) s.rx.receipts }

/-- R114: a whole end at `e` is reported to the holder. -/
def reportWholeEnd (h : Holder) (e : Count) (s : State) : State :=
  match h with
  | .none => s
  | .receipt u n => dropReceipt u n s
  | .exchange t => closeEvent 0 (exchWholeEnd t e s)
  | .announcement _ => annWholeEnd s

/-- R114: the frame on the line ends whole, if its end count is reached at a crossing that carries PRESENT. -/
def endFrame (s : State) : State :=
  match s.tx.state, s.tx.frame with
  | .sending, some f =>
    if f.endCount ≤ s.count ∧ s.time.state = .present then
      reportWholeEnd s.arb.holder f.endCount
        ((s.setTx { s.tx with state := restState s, frame := none }).setArb { s.arb with holder := .none })
    else s
  | _, _ => s

/-! ## Abandonment (R91, R115, R117, R128, R142) -/

/-- R114: an abandonment is reported to the holder. -/
def reportAbandonment (h : Holder) (s : State) : State :=
  match h with
  | .none => s
  | .receipt u n => markReceipt u n false s
  | .exchange t => exchAbandoned t s
  | .announcement _ => s.setDisp { s.disp with sending := none }

/-- R115, R117: the frame is abandoned: the carrier stops, the abandonment is reported, the holder becomes none. -/
def abandonFrame (s : State) : State :=
  reportAbandonment s.arb.holder ((s.setTx { s.tx with frame := none }).setArb { s.arb with holder := .none })

/-- R115: a carrier of another sender heard on a phase that the frame drives, in the frame's preamble. -/
def isCollision (ph : Phase) (s : State) : Bool :=
  match s.tx.state, s.tx.frame with
  | .sending, some f => decide (s.count < f.start + 2) && drives f.phase ph
  | _, _ => false

/-- R115: the Transmitter after a collision in the slot that the next counted crossing closes (log 26). -/
def enterBackoff (s : State) : State :=
  if s.conf.station = 0 then s.setTx { s.tx with state := .dormant, backoffEnd := none }
  else
    (s.setTx { s.tx with
      state := .backoff, backoffEnd := some (s.count + 1 + (1 + (Config.backoffChoice s.choices).val)) }).setChoices
      (s.choices + 1)

/-- R108, R115, R122: a collision on a phase: its carrier is heard there and is line activity, the frame is abandoned, the
backoff begins (log 26). It is a row of its own, which a PREAMBLE of the same carrier does not stand for (log 39). -/
def collide (ph : Phase) (s : State) : State :=
  closeEvent 0 (enterBackoff (abandonFrame (hearCarrier ph (s.setArb { s.arb with busy := true }))))

/-! ## A counted crossing at the line (R108, R113, R117) -/

/-- R108, R110: the quiet slot of the slot just closed; the claims of this crossing are open. -/
def markQuiet (s : State) : State := s.setArb { s.arb with quiet := !s.arb.busy, claimOpen := true }

/-- R108: the line activity that reaches into the slot that begins. -/
def markBusy (s : State) : State := s.setArb { s.arb with busy := ownCarrier s || carrierHeard s }

/-- R113, R117: the Transmitter at a counted crossing. -/
def txCrossing (s : State) : State :=
  if s.time.state = .present then
    if s.tx.state = .dormant ∧ s.conf.station ≠ 0 then s.setTx { s.tx with state := .idle } else s
  else
    let s1 := if s.tx.state = .sending then abandonFrame s else s
    s1.setTx { state := .dormant, frame := none, backoffEnd := none }

/-! ## Line reset (R119) and the station unit number (R113) -/

/-- R109: the claims of the latest crossing are judged no more: a condition that failed at it has become true since. -/
def closeClaims (s : State) : State := s.setArb { s.arb with claimOpen := false }

/-- R119: the Transmitter and the Line Arbiter at line reset. A Transmitter that was not IDLE at the latest crossing is first
claimed at the next (R109). -/
def txLineReset (s : State) : State :=
  (s.setTx
    { state := if s.conf.station ≠ 0 ∧ s.time.state = .present then .idle else .dormant, frame := none
      backoffEnd := none }).setArb
    { s.arb with holder := .none, claimOpen := s.arb.claimOpen && decide ((endBackoff s).tx.state = .idle) }

/-- R113: the Transmitter after a CONF that set the station unit number. From DORMANT it becomes IDLE, and is first claimed at
the next crossing (R109). -/
def txStation (s : State) : State :=
  if s.conf.station = 0 then
    if s.tx.state = .sending then s else s.setTx { s.tx with state := .dormant, backoffEnd := none }
  else if s.tx.state = .dormant ∧ s.time.state = .present then closeClaims (s.setTx { s.tx with state := .idle })
  else s

end Sys2Proof.Machine
end

