-- ==== Sys2Proof/Machine/Reception.lean ====
section
/-! DEFINITION. The Receiver: preambles (R122, R123), body bytes (R124), the end of a carrier (R125), completion and hand-off
(R125 to R127), receipts (R128, R131), reports (R129, R130, R132), and line reset (R135). -/

namespace Sys2Proof.Machine

/-- Changes the receive state of a phase. -/
def setPhase (ph : Phase) (x : PhaseState) (s : State) : State := s.setRx { s.rx with phases := s.rx.phases.set ph x }

/-- Replaces a buffer of the pool. -/
def setBuffer (i : Fin 4) (b : Buffer) (s : State) : State := s.setRx { s.rx with pool := s.rx.pool.set i b }

/-- R121, R123: a buffer becomes FREE, which clears the lost mark. -/
def freeBuffer (i : Fin 4) (s : State) : State := s.setRx { s.rx with pool := s.rx.pool.set i .free, lost := false }

/-- R122: the lowest-numbered FREE buffer. -/
def freeOne (s : State) : Option (Fin 4) := (List.finRange 4).find? fun i => decide (s.rx.pool.get i = .free)

/-! ## A preamble (R122, R123) -/

/-- R123: a frame is lost for want of a buffer. -/
def loseFrame (ph : Phase) (s : State) : State :=
  if s.rx.lost then s
  else notify s.conf.reportPort (.receiveLost ph s.count) (s.setRx { s.rx with lost := true })

/-- R122: a frame begins to be assembled in a buffer. -/
def beginAssembly (ph : Phase) (grade : Grade) (i : Fin 4) (s : State) : State :=
  setPhase ph (.assembling i none)
    (setBuffer i (.assembling
      { bytes := [], phase := ph, grade := grade, maxBody := s.conf.maxBody, station := s.conf.station }) s)

/-- R108, R122: a preamble is detected on a QUIET phase. Where the part's own carrier is present the phase becomes IGNORING, and
that is all this row does, also in the first 2 slots of a frame that drives the phase: R122 has the Transmitter take that same
carrier as the collision of R115, and the model leaves this to a COLLISION row which the sender gives too (log 39). -/
def detect (ph : Phase) (grade : Grade) (s : State) : State :=
  let s1 := s.setArb { s.arb with busy := true }
  if ownCarrier s then setPhase ph .ignoring s1
  else
    match freeOne s with
    | some i => beginAssembly ph grade i s1
    | none => loseFrame ph (setPhase ph .ignoring s1)

/-- R108, R122: a preamble is detected on a phase. On one whose frame's carrier has ended, and which has not completed, the new
carrier is line activity and its frame is not received (log 17); on any other phase that is not QUIET a carrier is heard
already. It is no collision of the part's own frame: that is the COLLISION row (R115; log 39). -/
def takePreamble (ph : Phase) (grade : Grade) (s : State) : State :=
  match s.rx.phases.get ph with
  | .quiet => detect ph grade s
  | .assembling _ (some _) => hearCarrier ph (s.setArb { s.arb with busy := true })
  | _ => s

/-! ## Body bytes (R124) -/

/-- R124: the frame is abandoned at its newest byte. -/
def failsTests (f : Assembly) : Bool :=
  (decide (f.bytes.length = 1) && decide ((byteAt f.bytes 0).toNat ≠ 3) && decide ((byteAt f.bytes 0).toNat ≠ 4))
    || (decide (f.bytes.length = 4) && (decide (f.station = 0) || decide (destOf f.bytes ≠ f.station)))
    || (decide (f.bytes.length = 8) && decide (positionIndex f.bytes ≠ relayCount f.bytes))
    || decide (f.maxBody < f.bytes.length)

/-- R124: an abandonment while the carrier goes on. -/
def abandonAssembly (ph : Phase) (i : Fin 4) (s : State) : State := setPhase ph .ignoring (freeBuffer i s)

/-- R124: a body byte arrives on a phase. -/
def takeByte (ph : Phase) (b : Byte) (s : State) : State :=
  match s.rx.phases.get ph with
  | .assembling i none =>
    match s.rx.pool.get i with
    | .assembling f =>
      let f1 := { f with bytes := f.bytes ++ [b] }
      if failsTests f1 then abandonAssembly ph i s else setBuffer i (.assembling f1) s
    | _ => s
  | _ => s

/-! ## The end of a carrier (R122, R125) -/

/-- R122, R125: the carrier on a phase ends. -/
def endCarrier (ph : Phase) (s : State) : State :=
  match s.rx.phases.get ph with
  | .ignoring => setPhase ph .quiet s
  | .assembling i none => setPhase ph (.assembling i (some (s.count + 1))) s
  | .assembling _ (some _) => s.setRx { s.rx with again := s.rx.again.set ph false }
  | .quiet => s

/-! ## An accepted frame (R126 to R132) -/

/-- R127, R162: the candidate route of an accepted frame completed at `e`. -/
def candidate (f : Assembly) (e : Count) : Route :=
  { unit := sourceOf f.bytes, path := (pathOf f.bytes).reverse, phase := f.phase, grade := f.grade, pinned := false
    written := e }

/-- R127: route learning. -/
def learnFrom (f : Assembly) (e : Count) (s : State) : State := s.setRoutes (learn (candidate f e) s.routes)

/-- R100, R126: the ANSWER of a frame completed at `e`. -/
def answerOf (f : Assembly) (e : Count) : Answer :=
  let b := f.bytes
  let pl := payloadOf b
  { source := sourceOf b, tag := byteAt pl 0, outcome := (byteAt pl 1).toNat
    reply :=
      if pl.length = 8 then
        some
          { group := (byteAt pl 2).toNat, setting := settingOf (byteAt pl 3) (byteAt pl 4) (byteAt pl 5)
            stamp := BitVec.ofNat 16 (ofBE [byteAt pl 6, byteAt pl 7]) }
      else none
    grade := f.grade, count := e }

/-- R126: an accepted ANSWER is handed on and its buffer becomes FREE. -/
def handAnswer (i : Fin 4) (f : Assembly) (e : Count) (s : State) : State :=
  closeAsked (takeAnswer (answerOf f e) (learnFrom f e (freeBuffer i s)))

/-- R131: a report of this source and number is a repeat. -/
def isRepeat (u : UnitNo) (n : Byte) (s : State) : Bool := s.rx.receipts.any (isReceipt u n)

/-- R129, R130: the receipt that acknowledges a report. -/
def receiptFor (f : Assembly) : Receipt :=
  { unit := sourceOf f.bytes, number := byteAt (payloadOf f.bytes) 0, path := (pathOf f.bytes).reverse, grade := f.grade
    onLine := false }

/-- R129, R130: a receipt may be queued: fewer than 4 are held and the report is no repeat. -/
def receiptRoom (f : Assembly) (s : State) : Bool :=
  decide (s.rx.receipts.length < 4) && !isRepeat (sourceOf f.bytes) (byteAt (payloadOf f.bytes) 0) s

/-- R128: a receipt joins the tail of the list. -/
def queueReceipt (f : Assembly) (s : State) : State :=
  s.setRx { s.rx with receipts := s.rx.receipts ++ [receiptFor f] }

/-- R129: a CATCH-UP report. -/
def takeCatchUp (i : Fin 4) (f : Assembly) (e : Count) (s : State) : State :=
  let s1 := learnFrom f e (freeBuffer i (if receiptRoom f s then queueReceipt f s else s))
  match groupOf (byteAt (payloadOf f.bytes) 2) with
  | some g => closeAsked (catchUp g none s1)
  | none => s1

/-- R121, R130: the report as it is held. -/
def heldOf (f : Assembly) (e : Count) : HeldReport :=
  { source := sourceOf f.bytes, number := byteAt (payloadOf f.bytes) 0, data := (payloadOf f.bytes).drop 2
    path := pathOf f.bytes, phase := f.phase, grade := f.grade, count := e }

/-- R130: an EVENT report is kept: another buffer is FREE and a receipt may be queued. -/
def keeps (f : Assembly) (s : State) : Bool := (freeOne s).isSome && receiptRoom f s

/-- R132: a REPORT WAITING notice to the report port. -/
def reportWaiting (r : HeldReport) (s : State) : State :=
  notify s.conf.reportPort (.reportWaiting r.source r.number s.rx.heldOrder.length) s

/-- R130: an EVENT report. -/
def takeEvent (i : Fin 4) (f : Assembly) (e : Count) (s : State) : State :=
  if keeps f s then
    let s1 := setBuffer i (.held (heldOf f e)) (queueReceipt f s)
    learnFrom f e (reportWaiting (heldOf f e) (s1.setRx { s1.rx with heldOrder := s1.rx.heldOrder ++ [i] }))
  else learnFrom f e (freeBuffer i s)

/-- R126, R129, R130: an accepted frame is handed on. -/
def handOn (i : Fin 4) (f : Assembly) (e : Count) (s : State) : State :=
  if (byteAt f.bytes 0).toNat = 3 then handAnswer i f e s
  else if (byteAt (payloadOf f.bytes) 1).toNat = 1 then takeCatchUp i f e s
  else takeEvent i f e s

/-- R122, R125: a phase whose frame completes becomes QUIET, or IGNORING while another carrier is heard on it (log 17). -/
def leavePhase (ph : Phase) (s : State) : State :=
  s.setRx
    { s.rx with
      phases := s.rx.phases.set ph (if s.rx.again.get ph then .ignoring else .quiet), again := s.rx.again.set ph false }

/-- R125: a frame completes: it is abandoned when it fails a test, dropped when an identical copy was accepted at this
crossing, and accepted otherwise (log 18, log 19). -/
def completeFrame (ph : Phase) (i : Fin 4) (f : Assembly) (e : Count) (s : State) : State :=
  let s1 := leavePhase ph s
  if !bodyAccepted f.bytes || f.bytes ∈ s.rx.accepted then freeBuffer i s1
  else handOn i f e (s1.setRx { s1.rx with accepted := f.bytes :: s1.rx.accepted })

/-- R125: the completion of the frame of a phase, if its completion count is reached. -/
def completePhase (ph : Phase) (s : State) : State :=
  match s.rx.phases.get ph with
  | .assembling i (some e) =>
    if e ≤ s.count then
      match s.rx.pool.get i with
      | .assembling f => completeFrame ph i f e s
      | _ => s
    else s
  | _ => s

/-! ## Held reports (R133) and line reset (R135) -/

/-- The oldest held report and its buffer (R130, R133). -/
def oldestHeld (s : State) : Option (Fin 4 × HeldReport) :=
  match s.rx.heldOrder with
  | i :: _ =>
    match s.rx.pool.get i with
    | .held r => some (i, r)
    | _ => none
  | [] => none

/-- R133: a held report is taken: its buffer becomes FREE. -/
def takeHeld (i : Fin 4) (s : State) : State :=
  freeBuffer i (s.setRx { s.rx with heldOrder := s.rx.heldOrder.filter fun j => decide (j ≠ i) })

/-- R135: the receive state of a phase after line reset (log 18): IGNORING while a carrier is heard on it, else QUIET. -/
def phaseReset (ph : Phase) (s : State) : PhaseState := if phaseHeard ph s then .ignoring else .quiet

/-- R135: the Receiver at line reset. -/
def rxLineReset (s : State) : State :=
  s.setRx
    { s.rx with
      pool := Vector.replicate 4 .free
      phases := { l1 := phaseReset .L1 s, l2 := phaseReset .L2 s, l3 := phaseReset .L3 s }
      again := { l1 := false, l2 := false, l3 := false }
      heldOrder := [], receipts := [], lost := false }

end Sys2Proof.Machine
end

