-- ==== Sys2Proof/Machine/Crossings.lean ====
section
/-! DEFINITION. The Time Base: real and synthetic crossings (R42 to R49), and what the crossing event of a counted crossing
does at the blocks that act on every crossing (R50: Line Arbiter, Transmitter, Receiver, Schedule List). -/

namespace Sys2Proof.Machine

/-- R41: the period estimate E, in microseconds. -/
def TimeBase.period (t : TimeBase) : Nat := t.history.sum / 8

/-- How a real crossing is taken (R42, R47). -/
inductive Edge where
  | noise
  | realigning
  | counted
  deriving DecidableEq, Repr

/-- R42, R47: a real crossing at `x`, judged by its distance from the reference point. An instant counts half
microseconds, so 0.5 E microseconds are E of them. -/
def TimeBase.judge (t : TimeBase) (x : Instant) : Edge :=
  match t.reference with
  | none => .counted
  | some (r, k) =>
    if x - r < t.period then
      match k with
      | .synthetic => .realigning
      | .counted => .noise
      | .realigning => .noise
    else .counted

/-- R43: the spacing measured at a counted real crossing, in microseconds, if there is one. -/
def TimeBase.spacing (t : TimeBase) (x : Instant) : Option Nat :=
  match t.lastCounted with
  | some (y, .real) => some ((x - y) / 2)
  | _ => none

/-- R43: a spacing within 0.75 E to 1.25 E. -/
def consistent (e d : Nat) : Bool := decide (3 * e ≤ 4 * d) && decide (4 * d ≤ 5 * e)

/-- R43: the spacing history after a counted real crossing. -/
def TimeBase.historyAt (t : TimeBase) (x : Instant) : List Nat :=
  match t.spacing x with
  | some d => if consistent t.period d then t.history.drop 1 ++ [d] else t.history
  | none => t.history

/-- R43, R44, R48: the consistent run after a counted real crossing, before a change of state. -/
def TimeBase.runAt (t : TimeBase) (x : Instant) : Nat :=
  if t.state = .present then 0
  else
    match t.spacing x with
    | some d => if consistent t.period d then t.run + 1 else 0
    | none => t.run

/-- R44, R48: the mains state after a counted real crossing. -/
def TimeBase.stateAt (t : TimeBase) (x : Instant) : MainsState := if 3 ≤ t.runAt x then .present else t.state

/-- R43 to R48: a counted real crossing. The synthetic due time follows it by 1.5 E, with E after R43; it is absent in
STARTING (log 29). -/
def TimeBase.countReal (t : TimeBase) (x : Instant) : TimeBase :=
  { count := t.count + 1
    state := t.stateAt x
    history := t.historyAt x
    reference := some (x, .counted)
    lastCounted := some (x, .real)
    run := if t.stateAt x = .present then 0 else t.runAt x
    due := if t.stateAt x = .starting then none else some (x + 3 * ((t.historyAt x).sum / 8)) }

/-- R47: a realigning crossing. -/
def TimeBase.realign (t : TimeBase) (x : Instant) : TimeBase :=
  { t with reference := some (x, .realigning), due := some (x + 3 * t.period) }

/-- R45, R46: a synthetic crossing. -/
def TimeBase.countSynthetic (t : TimeBase) (x : Instant) : TimeBase :=
  { t with
    count := t.count + 1, state := .lost, reference := some (x, .synthetic), lastCounted := some (x, .synthetic), run := 0
    due := some (x + 2 * t.period) }

/-- R49: the MAINS CHANGE notices of a change of state. -/
def mainsNotices (left : MainsState) (s : State) : State :=
  if left = s.time.state then s
  else notify .B (.mainsChange left s.time.state s.count) (notify .A (.mainsChange left s.time.state s.count) s)

/-- R125: no frame has been accepted yet at this crossing (log 19). -/
def clearAccepted (s : State) : State := s.setRx { s.rx with accepted := [] }

/-- R40, R79: pre-announcements are held back no longer. -/
def release (s : State) : State := s.setHeldBack false

/-- R31: the entries within their reach whose reach did not open at this crossing are tested (log 8). -/
def testOpened (s : State) : State := testEntries (fun e => !opensReach s.conf s.count e.activation) s

/-- R50: what every counted crossing does: the quiet slot, the Transmitter, the tests of the Schedule List (log 7). R139 leaves
open which of several exchanges that become READY at one crossing joins the ready order first; here the exchange of an abandoned
frame, and the orders that an ending in this row lets move, join it before those of the deadlines and holds that end at this
count, whose rows come later: the model's choice (log 38). -/
def crossingEvent (s : State) : State :=
  closeEvent 0 (testOpened (markBusy (txCrossing (clearAccepted (markQuiet (release s))))))

/-- R42 to R50: the Time Base takes a counted crossing: it is handed on, and the MAINS CHANGE notices of a change of state
follow, behind what the blocks that act on every crossing have queued (R44, R45, R48). The timers of the crossing are rows of
their own, and theirs come later (log 23). -/
def countCrossing (t : TimeBase) (s : State) : State := mainsNotices s.time.state (crossingEvent (s.setTime t))

/-- R42 to R48: an edge of the zero-crossing input at `x`. -/
def realEdge (x : Instant) (s : State) : State :=
  match s.time.judge x with
  | .noise => s
  | .realigning => s.setTime (s.time.realign x)
  | .counted => countCrossing (s.time.countReal x) s

/-- R45, R46: the synthetic due time arrives. -/
def syntheticEdge (s : State) : State :=
  match s.time.due with
  | some x => countCrossing (s.time.countSynthetic x) s
  | none => s

end Sys2Proof.Machine
end

