-- ==== Sys2Proof/Machine/LineCommands.lean ====
section
/-! DEFINITION. The commands of the line and of the mains: REAL_CROSSING, SYNTHETIC_CROSSING (R42 to R50), CLAIM (R109 to
R111), FRAME_WHOLE_END (R114), COLLISION (R115), BACKOFF_END (R116), PREAMBLE, BODY_BYTE, CARRIER_END, FRAME_COMPLETION (R122
to R125). -/

namespace Sys2Proof.Machine

/-- REAL_CROSSING (R42) at `t` microseconds; an instant counts half microseconds (log 6). -/
def execRealCrossing (t : Nat) (s : State) : Out := .next (realEdge (2 * t) s)

/-- SYNTHETIC_CROSSING (R45, R46). -/
def execSyntheticCrossing (s : State) : Out := .next (syntheticEdge s)

/-- CLAIM (R109 to R111). -/
def execClaim (s : State) : Out := .next (judgeClaims s)

/-- FRAME_WHOLE_END (R114). -/
def execFrameWholeEnd (s : State) : Out := .next (endFrame s)

/-- COLLISION (R115): the carrier of another sender is heard on a phase (log 26). The sender gives this row for every such
carrier, also where it gives a PREAMBLE row for the same carrier (log 39). -/
def execCollision (ph : Phase) (s : State) : Out :=
  .next (if isCollision ph s then collide ph s else s)

/-- BACKOFF_END (R116). -/
def execBackoffEnd (s : State) : Out := .next (endBackoff s)

/-- PREAMBLE (R122). That its carrier collides with the part's own frame is for a COLLISION row to say (log 39). -/
def execPreamble (ph : Phase) (grade : Grade) (s : State) : Out := .next (takePreamble ph grade s)

/-- BODY_BYTE (R124). -/
def execBodyByte (ph : Phase) (byte : Byte) (s : State) : Out := .next (takeByte ph byte s)

/-- CARRIER_END (R122, R125). -/
def execCarrierEnd (ph : Phase) (s : State) : Out := .next (endCarrier ph s)

/-- FRAME_COMPLETION (R125). -/
def execFrameCompletion (ph : Phase) (s : State) : Out := .next (completePhase ph s)

end Sys2Proof.Machine
end

