-- ==== Sys2Proof/Machine/PortRequests.lean ====
section
/-! DEFINITION. The port transactions (R172, R173, R175) and the requests of the port controller: NFETCH, NMASK, CMASK, SNAP,
CCLR, CONF, CREAD (R178 to R186). -/

namespace Sys2Proof.Machine

/-! ## Transactions -/

/-- R172, R173, R175: a write transaction with the bytes after its transaction byte. -/
def writePort (p : Port) (bytes : List Byte) (s : State) : State :=
  match (s.port p).state with
  | .idle =>
    match openEnvelope bytes with
    | some r => takeRequest p r s
    | none => refuseEnvelope p (messageKind bytes) s
  | .working => overrun p s
  | .answered => overrun p s

/-- WRITE_TRANSACTION (R175). -/
def execWriteTransaction (p : Port) (bytes : List Byte) (s : State) : Out :=
  .next (writePort p bytes s)

/-- R172: the bytes a read transaction returns: the status byte, then in ANSWERED up to `n` bytes of the response (log 22). -/
def returned (c : PortCtl) (n : Nat) : List Byte :=
  c.status ::
    (match c.state, c.slot with
      | .answered, some r => (encResponse r).take n
      | _, _ => [])

/-- R172, R175: a read transaction; in ANSWERED the port goes to IDLE, the slot becomes absent and the overrun marker is
cleared. -/
def readPort (n : Nat) (c : PortCtl) : PortCtl :=
  match c.state with
  | .answered => { c with state := .idle, slot := none, overrun := false, dataOut := returned c n }
  | .idle => { c with dataOut := returned c n }
  | .working => { c with dataOut := returned c n }

/-- READ_TRANSACTION (R172). -/
def execReadTransaction (p : Port) (n : Nat) (s : State) : Out :=
  .next (updPort p (readPort n) s)

/-- IGNORED_TRANSACTION (R172): "nothing is taken, nothing is returned, and the overrun marker is not touched". -/
def execIgnoredTransaction (_p : Port) (_byte : Byte) (s : State) : Out := .next s

/-! ## NFETCH (R182) and NMASK (R183) -/

/-- R182: the oldest notice is removed; the shedding mark is cleared when fewer than 15 remain; attention is judged. -/
def PortCtl.fetch (c : PortCtl) : PortCtl :=
  PortCtl.judge
    { c with notices := c.notices.tail, shedding := c.shedding && decide (15 ≤ c.notices.tail.length) }

/-- R182: the port controller acts on an NFETCH. -/
def actNfetch (p : Port) (fields : List Byte) (s : State) : State :=
  match readNothing fields with
  | none => malformed p .nfetch s
  | some _ =>
    match (s.port p).notices with
    | [] => reply p .nfetch .notFound (.notice none 0) s
    | n :: ns => reply p .nfetch .done (.notice (some n) ns.length) (updPort p PortCtl.fetch s)

/-- NFETCH Fetch Notice (R182). -/
def execNfetch (p : Port) (fields : List Byte) (s : State) : Out :=
  .next (requestStep p .nfetch fields (actNfetch p fields) s)

/-- R183: the port controller acts on an NMASK. -/
def actNmask (p : Port) (fields : List Byte) (s : State) : State :=
  match readNmask fields with
  | none => malformed p .nmask s
  | some m => reply p .nmask .done .empty (updPort p (fun c => PortCtl.judge { c with noticeMask := m }) s)

/-- NMASK Set Notice Mask (R183). -/
def execNmask (p : Port) (fields : List Byte) (s : State) : Out :=
  .next (requestStep p .nmask fields (actNmask p fields) s)

/-! ## CMASK (R178), SNAP (R179), CCLR (R180) -/

/-- R178: the port controller acts on a CMASK. -/
def actCmask (p : Port) (fields : List Byte) (s : State) : State :=
  match readCmask fields with
  | none => malformed p .cmask s
  | some m => reply p .cmask .done .empty (updPort p (fun c => { c with mask := m }) s)

/-- CMASK Set Condition Mask (R178). -/
def execCmask (p : Port) (fields : List Byte) (s : State) : Out :=
  .next (requestStep p .cmask fields (actCmask p fields) s)

/-- R179: the response of a SNAP. -/
def snapOf (c : PortCtl) : ResponseBody := .conditions c.mask c.summary c.record c.overrun

/-- R179: the port controller acts on a SNAP. -/
def actSnap (p : Port) (fields : List Byte) (s : State) : State :=
  match readSnap fields with
  | none => malformed p .snap s
  | some all =>
    reply p .snap .done (snapOf (s.port p)) (updPort p (fun c => if all then { c with mask := CondSet.all } else c) s)

/-- SNAP Read Condition State (R179). -/
def execSnap (p : Port) (fields : List Byte) (s : State) : Out :=
  .next (requestStep p .snap fields (actSnap p fields) s)

/-- R180: the port controller acts on a CCLR. -/
def actCclr (p : Port) (fields : List Byte) (s : State) : State :=
  match readNothing fields with
  | none => malformed p .cclr s
  | some _ => reply p .cclr .done .empty (updPort p (fun c => { c with summary := CondSet.clear, record := none }) s)

/-- CCLR Clear Conditions (R180). -/
def execCclr (p : Port) (fields : List Byte) (s : State) : Out :=
  .next (requestStep p .cclr fields (actCclr p fields) s)

/-! ## CONF (R185) and CREAD (R186) -/

/-- R185: the configuration with every value named set, each clamped. -/
def confWith (ns : List Named) (c : Params) : Params := ns.foldl (fun c n => c.assign n.1 (clampParam n.1 n.2)) c

/-- R185: a value given was clamped. -/
def anyClamped (ns : List Named) : Bool := ns.any fun n => decide (clampParam n.1 n.2 ≠ n.2)

/-- R185: for each parameter named, in number order, the value before and the value after. -/
def changesOf (ns : List Named) (before after : Params) : List (ParamId × Nat × Nat) :=
  (allParams.filter fun q => decide (q ∈ ns.map Prod.fst)).map fun q => (q, before.value q, after.value q)

/-- R113: the Transmitter takes a CONF that names the station unit number. -/
def confStation (ns : List Named) (s : State) : State := if .station ∈ ns.map Prod.fst then txStation s else s

/-- R132, R134: a change of the report port is told to the new report port while a report is held. -/
def confReports (former : Port) (s : State) : State :=
  if s.conf.reportPort = former then s
  else
    match oldestHeld s with
    | some (_, r) => reportWaiting r s
    | none => s

/-- R185: the values are set in one action, with what the blocks do at once. -/
def configure (ns : List Named) (s : State) : State :=
  confReports s.conf.reportPort (confStation ns (s.setConf (confWith ns s.conf)))

/-- R185: the port controller acts on a CONF. -/
def actConf (p : Port) (fields : List Byte) (s : State) : State :=
  match readConf fields with
  | none => malformed p .conf s
  | some ns =>
    let s1 := configure ns s
    reply p .conf (if anyClamped ns then .adjusted else .done) .empty
      (notify (otherPort p) (.configChanged (changesOf ns s.conf s1.conf)) s1)

/-- CONF Configure (R185). -/
def execConf (p : Port) (fields : List Byte) (s : State) : Out :=
  .next (requestStep p .conf fields (actConf p fields) s)

/-- R186: the port controller acts on a CREAD. -/
def actCread (p : Port) (fields : List Byte) (s : State) : State :=
  match readNothing fields with
  | none => malformed p .cread s
  | some _ => reply p .cread .done (.params s.conf) s

/-- CREAD Read Configuration (R186). -/
def execCread (p : Port) (fields : List Byte) (s : State) : Out :=
  .next (requestStep p .cread fields (actCread p fields) s)

end Sys2Proof.Machine
end

