-- ==== Sys2Proof/Machine/Resets.lean ====
section
/-! DEFINITION. The resets: POWER_ON_RESET (R189), LRESET (R26, R40, R79, R119, R135, R159, R188), PRESET (R187). -/

namespace Sys2Proof.Machine

/-! ## POWER_ON_RESET (R189) -/

/-- R189: every block takes its power-on values. The waiting commands and the counter of free values are the model's own and
stay (log 4). -/
def powerOn (s : State) : State := (State.reset.setPending s.pending).setChoices s.choices

/-- POWER_ON_RESET (R189). -/
def execPowerOnReset (s : State) : Out := .next (powerOn s)

/-! ## LRESET (R188) -/

/-- R79: what an entry of the emptied queue leaves behind: ORDER ENDED for an order; for an announcement entry that was in
flight the group's stated setting becomes absent (R26), a next stated whose count has come being applied first (R12; log 34).
-/
def emptied (e : Entry) (s : State) : State :=
  match e with
  | .order o => notify o.port (orderNotice o) s
  | .fence _ => s
  | .ann a => if a.started then clearStated a.group (applyNext a.group s) else s

/-- R79: the Dispatcher empties the queue; the transmission in progress is removed with its entry (R81). All leave at once; their
ORDER ENDED notices are queued from the head of the queue to the tail, which is the model's choice (log 23). -/
def emptyQueue (s : State) : State :=
  s.disp.queue.foldl (fun s e => emptied e s) (s.setDisp { s.disp with queue := [], sending := none })

/-- The live exchanges in ascending order of their tags (R159). -/
def byTag (s : State) : List Exchange := (List.range 256).filterMap fun t => exchOf (BitVec.ofNat 8 t) s

/-- R159: the ready order becomes empty. -/
def emptyReady (s : State) : State := s.setExch { s.exch with ready := [] }

/-- R159: every live exchange ends CANCELLED, in ascending tag order; no route is removed and nothing is reported. -/
def cancelAll (s : State) : State := emptyReady ((byTag s).foldl (fun s x => dropExch x .cancelled none none s) s)

/-- R79, R159: the two sets of endings, in either order (log 12). -/
def endAllWork (s : State) : State :=
  if s.disp.queue.any isWork && !s.exch.table.isEmpty then
    let d := drawOrder s
    if d.1 then cancelAll (emptyQueue d.2) else emptyQueue (cancelAll d.2)
  else cancelAll (emptyQueue s)

/-- R40: each QUEUED mark becomes NONE. -/
def unqueueMarks (s : State) : State :=
  s.setSchedule (s.schedule.map fun e => if e.mark = .queued then { e with mark := .none } else e)

/-- R26: every due flag is cleared. -/
def clearDues (s : State) : State := s.setGroups (s.groups.map fun r => { r with due := false })

/-- R22, R26: an open GWAIT is answered UNSETTLED. -/
def cutWait (p : Port) (s : State) : State :=
  match s.waits.get p with
  | some w => answerWait p w.group false s
  | none => s

/-- R26: the check of every group, in ascending number; nothing is offered. -/
def refill (s : State) : State := (List.finRange 64).foldl (fun s g => (check g s).state) s

/-- R188: the line reset at every block: pre-announcements are held back (R79), the work ends (R79, R159), the marks (R40), the
Transmitter and the Line Arbiter (R119), the Receiver (R135), the due flags and the waits (R26), QUEUE SPACE (R72), the refill.
That QUEUE SPACE is queued after both sets of endings, of the orders and of the exchanges, is the model's choice (log 23). -/
def lineReset (s : State) : State :=
  refill (queueSpace (cutWait .B (cutWait .A (clearDues (rxLineReset (txLineReset (unqueueMarks
    (endAllWork (s.setHeldBack true)))))))))

/-- R188: the port controller acts on an LRESET. -/
def actLreset (p : Port) (fields : List Byte) (s : State) : State :=
  match readNothing fields with
  | none => malformed p .lreset s
  | some _ => reply p .lreset .done .empty (notify (otherPort p) (.lineReset s.count) (lineReset s))

/-- LRESET Line Reset (R188). -/
def execLreset (p : Port) (fields : List Byte) (s : State) : Out :=
  .next (requestStep p .lreset fields (actLreset p fields) s)

/-! ## PRESET (R187) -/

/-- R187: the requesting port's controller. -/
def PortCtl.preset (c : PortCtl) : PortCtl :=
  { c with
    notices := [], attention := false, shedding := false, overrun := false, mask := CondSet.all, noticeMask := 0
    summary := CondSet.clear, record := none }

/-- R187: the port controller acts on a PRESET. -/
def actPreset (p : Port) (fields : List Byte) (s : State) : State :=
  match readNothing fields with
  | none => malformed p .preset s
  | some _ =>
    reply p .preset .done .empty
      (updPort p PortCtl.preset (s.setDisp { s.disp with spaceMarks := s.disp.spaceMarks.set p false }))

/-- PRESET Port Reset (R187). -/
def execPreset (p : Port) (fields : List Byte) (s : State) : Out :=
  .next (requestStep p .preset fields (actPreset p fields) s)

end Sys2Proof.Machine
end

