-- ==== Sys2Proof/Machine/RouteRequests.lean ====
section
/-! DEFINITION. The requests of the Route Cache, RPIN, RFREE, RFLSH, RREAD (R166 to R169), of the Receiver, RTAKE (R133), and
of the Time Base, TIME (R53). -/

namespace Sys2Proof.Machine

/-! ## RPIN (R166) -/

/-- R166: the entry an RPIN writes. -/
def pinnedRoute (f : PinFields) (count : Count) : Route :=
  { unit := f.unit, path := f.path, phase := f.phase, grade := f.grade, pinned := true, written := count }

/-- R166: where an RPIN writes: the unit's own place, else the lowest empty place, else the victim's. -/
def pinPlace (u : UnitNo) (c : RouteCache) : Option (Fin 64) :=
  match placeOf c u with
  | some i => some i
  | none => newPlace c

/-- R166: the entry is written and the last-used index becomes its place. -/
def pinAt (i : Fin 64) (r : Route) (s : State) : State :=
  s.setRoutes { writeRoute i r s.routes with lastUsed := some i }

/-- R166: the Route Cache acts on an RPIN. -/
def actRpin (p : Port) (fields : List Byte) (s : State) : State :=
  match readRpin fields with
  | none => malformed p .rpin s
  | some f =>
    match pinPlace f.unit s.routes with
    | some i => reply p .rpin .done (.place i) (pinAt i (pinnedRoute f s.count) s)
    | none => reply p .rpin .full .empty s

/-- RPIN Install Route (R166). -/
def execRpin (p : Port) (fields : List Byte) (s : State) : Out :=
  .next (requestStep p .rpin fields (actRpin p fields) s)

/-! ## RFREE (R167) -/

/-- R167: the pinned mark of the entry at a place is cleared. -/
def unpinAt (i : Fin 64) (c : RouteCache) : RouteCache :=
  { c with places := c.places.set i ((c.places.get i).map fun r => { r with pinned := false }) }

/-- R167: the Route Cache acts on an RFREE. -/
def actRfree (p : Port) (fields : List Byte) (s : State) : State :=
  match readUnit fields with
  | none => malformed p .rfree s
  | some u =>
    match placeOf s.routes u with
    | some i => reply p .rfree .done .empty (s.setRoutes (unpinAt i s.routes))
    | none => reply p .rfree .notFound .empty s

/-- RFREE Release Route Pin (R167). -/
def execRfree (p : Port) (fields : List Byte) (s : State) : Out :=
  .next (requestStep p .rfree fields (actRfree p fields) s)

/-! ## RFLSH (R168) -/

/-- R168: a place after the flush. -/
def flushPlace : Option Route → Option Route
  | some r => if r.pinned then some r else none
  | none => none

/-- R168: every unpinned entry is removed; the last-used index becomes none when its place was emptied. -/
def flushRoutes (c : RouteCache) : RouteCache :=
  { places := c.places.map flushPlace
    lastUsed :=
      match c.lastUsed with
      | some i => if isUnpinned c i then none else some i
      | none => none }

/-- R168: the Route Cache acts on an RFLSH. -/
def actRflsh (p : Port) (fields : List Byte) (s : State) : State :=
  match readNothing fields with
  | none => malformed p .rflsh s
  | some _ =>
    reply p .rflsh .done
      (.flushed (heldRoutes s.routes - pinnedRoutes s.routes) (pinnedRoutes s.routes))
      (s.setRoutes (flushRoutes s.routes))

/-- RFLSH Flush Learned Routes (R168). -/
def execRflsh (p : Port) (fields : List Byte) (s : State) : Out :=
  .next (requestStep p .rflsh fields (actRflsh p fields) s)

/-! ## RREAD (R169) -/

/-- R169: the unit's entry as RREAD returns it. -/
def readRoute (u : UnitNo) (c : RouteCache) : Option RouteReading :=
  match placeOf c u with
  | some i => (c.places.get i).map fun r => { place := i, route := r, lastUsed := decide (c.lastUsed = some i) }
  | none => none

/-- R169: the Route Cache acts on an RREAD. -/
def actRread (p : Port) (fields : List Byte) (s : State) : State :=
  match readUnit fields with
  | none => malformed p .rread s
  | some u =>
    let r := readRoute u s.routes
    reply p .rread (if r.isSome then .done else .notFound) (.route r (heldRoutes s.routes) (pinnedRoutes s.routes)) s

/-- RREAD Read Route (R169). -/
def execRread (p : Port) (fields : List Byte) (s : State) : Out :=
  .next (requestStep p .rread fields (actRread p fields) s)

/-! ## RTAKE (R133) -/

/-- R133: the Receiver acts on an RTAKE. -/
def actRtake (p : Port) (fields : List Byte) (s : State) : State :=
  match readNothing fields with
  | none => malformed p .rtake s
  | some _ =>
    if p = s.conf.reportPort then
      match oldestHeld s with
      | some (i, r) => reply p .rtake .done (.report r (s.rx.heldOrder.length - 1)) (takeHeld i s)
      | none => reply p .rtake .notFound .empty s
    else reply p .rtake .wrongPort .empty s

/-- RTAKE Take Report (R133). -/
def execRtake (p : Port) (fields : List Byte) (s : State) : Out :=
  .next (requestStep p .rtake fields (actRtake p fields) s)

/-! ## TIME (R53) -/

/-- R53: the Time Base acts on a TIME. -/
def actTime (p : Port) (fields : List Byte) (s : State) : State :=
  match readNothing fields with
  | none => malformed p .time s
  | some _ => reply p .time .done (.time s.count s.time.state s.time.period) s

/-- TIME Read Mains Count (R53). -/
def execTime (p : Port) (fields : List Byte) (s : State) : Out :=
  .next (requestStep p .time fields (actTime p fields) s)

end Sys2Proof.Machine
end

