-- ==== Sys2Proof/Machine/ScheduleRequests.lean ====
section
/-! DEFINITION. The requests of the Schedule List: SCHED, UNSCH, SREAD (R29, R30, R37 to R39), and its timers:
SCHEDULE_ACTIVATION (R34, R35), OPENING_OF_REACH (R31). -/

namespace Sys2Proof.Machine

/-- R29: a new entry goes behind every entry whose activation count is at or before its own. -/
def insertEntry (e : SchedEntry) : List SchedEntry → List SchedEntry
  | [] => [e]
  | x :: xs => if x.activation ≤ e.activation then x :: insertEntry e xs else e :: x :: xs

/-- R29: a new entry. -/
def newEntry (p : Port) (g : GroupNo) (a : Count) (st : Setting) : SchedEntry :=
  { group := g, activation := a, setting := st, origin := p, mark := .none }

/-! ## The effects of a withdrawal (R38) -/

/-- R70: the announcement entry is the pre-announcement of an activation count. -/
def isTimedAt (a : Count) (x : Ann) : Bool := decide (x.activation = some a)

/-- The queue holds a not-started pre-announcement of the entry. -/
def heldUnstarted (e : SchedEntry) (s : State) : Bool :=
  s.disp.queue.any fun q =>
    match q with
    | .ann x => isNotStarted e.group (.ann x) && isTimedAt e.activation x
    | _ => false

/-- The queue holds the pre-announcement of the entry in flight. -/
def heldInFlight (e : SchedEntry) (s : State) : Bool :=
  s.disp.queue.any fun q =>
    match q with
    | .ann x => isInFlight e.group (.ann x) && isTimedAt e.activation x
    | _ => false

/-- R36, R38: a check may have been left to the entry (log 32): its count has come. -/
def mayBeLeftTo (e : SchedEntry) (s : State) : Bool := decide (e.activation ≤ s.count)

/-- The end of a withdrawal whose departures left `n` places free: the check, where the obligation of R8 asks for it, the test
of the group's other entries, and the offers (R8, R31, R65). -/
def closeWithdrawal (e : SchedEntry) (n : Nat) (s : State) : State :=
  if unmet (mayBeLeftTo e s) e.group s then
    let r := checkAndOffer e.group n s
    closeDeparture r.freed (testGroup e.group r.state)
  else closeDeparture n (testGroup e.group s)

/-- R38, QUEUED in flight: the cut-short, the check, and the test of the group's other entries. -/
def withdrawInFlight (g : GroupNo) (s : State) : State :=
  let c := cutShort g s
  let r := checkAndOffer g c.2 c.1
  closeDeparture r.freed (testGroup g r.state)

/-- R8: an entry that leaves the list takes nothing with it, but the check that was left to its activation (log 32). -/
def settleDebt (e : SchedEntry) (s : State) : State :=
  if unmet (mayBeLeftTo e s) e.group s then closeAsked (checkUnlessLeft e.group (applyNext e.group s)) else s

/-- R38: the effects of withdrawing an entry, which has left the list. The check that keeps R8 is made also where the
pre-announcement withdrawn had absorbed the group's request (R60), or where a check was left to the entry's activation. -/
def withdrawEffects (e : SchedEntry) (s : State) : State :=
  match e.mark with
  | .none => settleDebt e s
  | .queued =>
    if heldUnstarted e s then
      let w := withdraw e.group (isTimedAt e.activation) s
      closeWithdrawal e w.2 w.1
    else if heldInFlight e s then withdrawInFlight e.group s
    else settleDebt e s
  | .completed => closeAsked (check e.group (clearNext e.group (clearStated e.group s)))

/-! ## SCHED (R29, R30) -/

/-- R30: an entry of the list changed in its place. -/
def changeEntry (g : GroupNo) (a : Count) (f : SchedEntry → SchedEntry) (s : State) : State :=
  s.setSchedule (s.schedule.map fun e => if isEntryOf g a e then f e else e)

/-- The entry leaves the list. -/
def removeEntry (g : GroupNo) (a : Count) (s : State) : State := s.setSchedule (removeFirst (isEntryOf g a) s.schedule)

/-- R31, R32: the entry of a group with an activation count is tested. -/
def testOne (g : GroupNo) (a : Count) (s : State) : State := testEntries (isEntryOf g a) s

/-- R30: a different setting: the withdrawal, then the new entry in its place (log 27). The withdrawal is an event of its own,
as an UNSCH is: open GWAITs are tested at its end, before the new entry is tested for its pre-announcement (R22; log 27).
A check left to the expiries of this crossing is made where the new entry, its count come, no longer leaves it to them (R8;
log 32). -/
def replaceEntry (p : Port) (e : SchedEntry) (st : Setting) (s : State) : State :=
  let i := s.schedule.findIdx (isEntryOf e.group e.activation)
  let s1 := withdrawEffects e (removeEntry e.group e.activation s)
  closeEvent 0 (testOne e.group e.activation (settleDebt e
    (s1.setSchedule (s1.schedule.take i ++ newEntry p e.group e.activation st :: s1.schedule.drop i))))

/-- R30: the replacement of a held entry. -/
def replaceHeld (p : Port) (e : SchedEntry) (st : Setting) (s : State) : State :=
  if e.setting = st then
    closeEvent 0 (testOne e.group e.activation
      (changeEntry e.group e.activation (fun x => { x with origin := p }) s))
  else replaceEntry p e st s

/-- R29: PAST for a count that the mains count has come to, with no entry held for it. Masked, the setting becomes the group's
base at once, with origin SCHEDULE. -/
def schedPast (p : Port) (g : GroupNo) (st : Setting) (s : State) : State :=
  let s1 := raiseCond p .past .sched g s
  if masked p .past s then finish p .sched .adjusted (check g (setBase g st .schedule s1)) else refuse p .sched .past s1

/-- R29, R30, R36: the entry, with the setting after RANGE. A held entry is replaced, also one whose count the mains count has
come to while it is still to act: the SCHED is then the event taken first, and the replacement acts at that crossing. Once the
activation has been taken no entry is held, and the SCHED raises PAST (log 33). -/
def enterSched (p : Port) (g : GroupNo) (a : Count) (st : Setting) (adj : Bool) (s : State) : State :=
  match s.schedule.find? (isEntryOf g a) with
  | some e => reply p .sched (doneOr adj) .empty (replaceHeld p e st s)
  | none =>
    if a ≤ s.count then schedPast p g st s
    else if 48 ≤ s.schedule.length then reply p .sched .full .empty s
    else
      reply p .sched (doneOr adj) .empty
        (closeEvent 0 (testOne g a (s.setSchedule (insertEntry (newEntry p g a st) s.schedule))))

/-- R29: the Schedule List acts on a SCHED. -/
def actSched (p : Port) (fields : List Byte) (s : State) : State :=
  match readSched fields with
  | none => malformed p .sched s
  | some (g, a, st) =>
    match testRange p .sched g st s with
    | (s1, none) => s1
    | (s1, some (st1, adj)) => enterSched p g a st1 adj s1

/-- SCHED Schedule Change (R29). -/
def execSched (p : Port) (fields : List Byte) (s : State) : Out :=
  .next (requestStep p .sched fields (actSched p fields) s)

/-! ## UNSCH (R37) and SREAD (R39) -/

/-- R37: the Schedule List acts on an UNSCH. -/
def actUnsch (p : Port) (fields : List Byte) (s : State) : State :=
  match readUnsch fields with
  | none => malformed p .unsch s
  | some (g, a) =>
    match s.schedule.find? (isEntryOf g a) with
    | some e => reply p .unsch .done .empty (withdrawEffects e (removeEntry g a s))
    | none => reply p .unsch .notFound .empty s

/-- UNSCH Withdraw Change (R37). -/
def execUnsch (p : Port) (fields : List Byte) (s : State) : Out :=
  .next (requestStep p .unsch fields (actUnsch p fields) s)

/-- R39: up to 5 entries with their indices, from a start index. -/
def entriesFrom (start : Nat) (es : List SchedEntry) : List (Nat × SchedEntry) :=
  ((es.zipIdx.map fun x => (x.2, x.1)).drop start).take 5

/-- R39: the Schedule List acts on an SREAD. -/
def actSread (p : Port) (fields : List Byte) (s : State) : State :=
  match readByte fields with
  | none => malformed p .sread s
  | some b => reply p .sread .done (.schedule s.schedule.length (entriesFrom b.toNat s.schedule)) s

/-- SREAD Read Schedule (R39). -/
def execSread (p : Port) (fields : List Byte) (s : State) : Out :=
  .next (requestStep p .sread fields (actSread p fields) s)

/-! ## The timers of the Schedule List -/

/-- R34: an entry acts on its group and leaves the list; its origin port receives SCHEDULE APPLIED; the check follows, or is
left to the expiry that is owed (R36; log 32, log 37). -/
def activate (e : SchedEntry) (s : State) : State :=
  closeAsked (checkAfter e.group
    (notify e.origin (.scheduleApplied e.group e.activation e.setting e.mark)
      (setBase e.group e.setting .schedule (removeEntry e.group e.activation s))))

/-- R34: the activation of the entry of a group whose count is reached. -/
def activateGroup (g : GroupNo) (s : State) : State :=
  match s.schedule.find? (isReached g s.count) with
  | some e => activate e s
  | none => s

/-- SCHEDULE_ACTIVATION (R34). -/
def execScheduleActivation (g : GroupNo) (s : State) : Out := .next (activateGroup g s)

/-- R31: the entries whose reach opens at this count are tested, in list order (log 8). -/
def openReach (s : State) : State := closeEvent 0 (testEntries (fun e => opensReach s.conf s.count e.activation) s)

/-- OPENING_OF_REACH (R31). -/
def execOpeningOfReach (s : State) : Out := .next (openReach s)

end Sys2Proof.Machine
end

