-- ==== Sys2Proof/Machine/Dispatch.lean ====
section
/-! DEFINITION. One arm for each command of the table. -/

namespace Sys2Proof.Machine

def exec (i : Instr) (s : State) : Host.Outcome State Fault Refusal :=
  match i with
  | .powerOnReset => Sys2Proof.Machine.execPowerOnReset s
  | .writeTransaction p bytes => Sys2Proof.Machine.execWriteTransaction p bytes s
  | .readTransaction p n => Sys2Proof.Machine.execReadTransaction p n s
  | .ignoredTransaction p byte => Sys2Proof.Machine.execIgnoredTransaction p byte s
  | .sbase p fields => Sys2Proof.Machine.execSbase p fields s
  | .pushl p fields => Sys2Proof.Machine.execPushl p fields s
  | .dropl p fields => Sys2Proof.Machine.execDropl p fields s
  | .goff p fields => Sys2Proof.Machine.execGoff p fields s
  | .gread p fields => Sys2Proof.Machine.execGread p fields s
  | .gwait p fields => Sys2Proof.Machine.execGwait p fields s
  | .sched p fields => Sys2Proof.Machine.execSched p fields s
  | .unsch p fields => Sys2Proof.Machine.execUnsch p fields s
  | .sread p fields => Sys2Proof.Machine.execSread p fields s
  | .time p fields => Sys2Proof.Machine.execTime p fields s
  | .order p fields => Sys2Proof.Machine.execOrder p fields s
  | .fence p fields => Sys2Proof.Machine.execFence p fields s
  | .cancl p fields => Sys2Proof.Machine.execCancl p fields s
  | .refsh p fields => Sys2Proof.Machine.execRefsh p fields s
  | .rtake p fields => Sys2Proof.Machine.execRtake p fields s
  | .rpin p fields => Sys2Proof.Machine.execRpin p fields s
  | .rfree p fields => Sys2Proof.Machine.execRfree p fields s
  | .rflsh p fields => Sys2Proof.Machine.execRflsh p fields s
  | .rread p fields => Sys2Proof.Machine.execRread p fields s
  | .nfetch p fields => Sys2Proof.Machine.execNfetch p fields s
  | .nmask p fields => Sys2Proof.Machine.execNmask p fields s
  | .cmask p fields => Sys2Proof.Machine.execCmask p fields s
  | .snap p fields => Sys2Proof.Machine.execSnap p fields s
  | .cclr p fields => Sys2Proof.Machine.execCclr p fields s
  | .conf p fields => Sys2Proof.Machine.execConf p fields s
  | .cread p fields => Sys2Proof.Machine.execCread p fields s
  | .lreset p fields => Sys2Proof.Machine.execLreset p fields s
  | .preset p fields => Sys2Proof.Machine.execPreset p fields s
  | .gwaitLimit p => Sys2Proof.Machine.execGwaitLimit p s
  | .realCrossing t => Sys2Proof.Machine.execRealCrossing t s
  | .syntheticCrossing => Sys2Proof.Machine.execSyntheticCrossing s
  | .layerExpiry g => Sys2Proof.Machine.execLayerExpiry g s
  | .applicationOfNextStated g => Sys2Proof.Machine.execApplicationOfNextStated g s
  | .scheduleActivation g => Sys2Proof.Machine.execScheduleActivation g s
  | .openingOfReach => Sys2Proof.Machine.execOpeningOfReach s
  | .settleInterval place => Sys2Proof.Machine.execSettleInterval place s
  | .repeatSpacing place => Sys2Proof.Machine.execRepeatSpacing place s
  | .claim => Sys2Proof.Machine.execClaim s
  | .frameWholeEnd => Sys2Proof.Machine.execFrameWholeEnd s
  | .collision ph => Sys2Proof.Machine.execCollision ph s
  | .backoffEnd => Sys2Proof.Machine.execBackoffEnd s
  | .answerWindow tag => Sys2Proof.Machine.execAnswerWindow tag s
  | .hold tag => Sys2Proof.Machine.execHold tag s
  | .preamble ph grade => Sys2Proof.Machine.execPreamble ph grade s
  | .bodyByte ph byte => Sys2Proof.Machine.execBodyByte ph byte s
  | .carrierEnd ph => Sys2Proof.Machine.execCarrierEnd ph s
  | .frameCompletion ph => Sys2Proof.Machine.execFrameCompletion ph s

end Sys2Proof.Machine
end

