-- ==== Sys2Proof/Safety.lean ====
section
/-! DEFINITION. What the claims speak of: an idle port, an answered port, the request rows by kind, what is left alone (`Keeps`),
the limits the manual sets on the state (`Inv`), the agreement of the line's users (`LineInv`), the schedule, the dispatch
queue, the exchange table, the receive pool, the routes, the debt of R8, the moves of R73 and R75, and the open GWAITs. -/

namespace Sys2Proof.Machine

/-! ## Ports -/

/-- The port is IDLE (R171). -/
def PortIdle (p : Port) (s : State) : Prop := (s.port p).state = .idle

/-- The controller of a port after a request of kind `k` was taken in IDLE and answered (R175, R176). -/
def answeredAs (k : ReqKind) (o : ReqOutcome) (x : Option Condition) (b : ResponseBody) (c : PortCtl) : PortCtl :=
  { c with state := .answered, slot := some { kind := some k, outcome := o, condition := x, body := b }, inHand := none }

/-- The port holds the response of a request of kind `k`: outcome, condition, fields (R173, R175). -/
def Answered (p : Port) (k : ReqKind) (o : ReqOutcome) (x : Option Condition) (b : ResponseBody) (t : State) : Prop :=
  (t.port p).state = .answered
    ∧ (t.port p).slot = some { kind := some k, outcome := o, condition := x, body := b }

/-- The state in which a port holds the answer to a request, its controller first changed by `f`, all else as it stood. -/
def answer (p : Port) (k : ReqKind) (o : ReqOutcome) (x : Option Condition) (b : ResponseBody) (f : PortCtl → PortCtl)
    (s : State) : State :=
  updPort p (fun c => answeredAs k o x b (f c)) s

/-- The request row of a kind (R173; log 3). -/
def rowOf (k : ReqKind) (p : Port) (fields : List Byte) : Instr :=
  match k with
  | .sbase => .sbase p fields
  | .pushl => .pushl p fields
  | .dropl => .dropl p fields
  | .goff => .goff p fields
  | .gread => .gread p fields
  | .gwait => .gwait p fields
  | .sched => .sched p fields
  | .unsch => .unsch p fields
  | .sread => .sread p fields
  | .time => .time p fields
  | .order => .order p fields
  | .fence => .fence p fields
  | .cancl => .cancl p fields
  | .refsh => .refsh p fields
  | .rtake => .rtake p fields
  | .rpin => .rpin p fields
  | .rfree => .rfree p fields
  | .rflsh => .rflsh p fields
  | .rread => .rread p fields
  | .nfetch => .nfetch p fields
  | .nmask => .nmask p fields
  | .cmask => .cmask p fields
  | .snap => .snap p fields
  | .cclr => .cclr p fields
  | .conf => .conf p fields
  | .cread => .cread p fields
  | .lreset => .lreset p fields
  | .preset => .preset p fields

/-- The fields are ones the request of a kind takes: its owner does not answer MALFORMED (R13, R71, R166, R174, R185). -/
def fieldsRead (k : ReqKind) (fields : List Byte) : Bool :=
  match k with
  | .sbase => (readSbase fields).isSome
  | .pushl => (readPushl fields).isSome
  | .dropl => (readDropl fields).isSome
  | .goff => (readGroupOnly fields).isSome
  | .gread => (readGread fields).isSome
  | .gwait => (readGroupOnly fields).isSome
  | .sched => (readSched fields).isSome
  | .unsch => (readUnsch fields).isSome
  | .sread => (readByte fields).isSome
  | .time => (readNothing fields).isSome
  | .order => (readOrder fields).isSome
  | .fence => (readNothing fields).isSome
  | .cancl => (readByte fields).isSome
  | .refsh => (readGroupOnly fields).isSome
  | .rtake => (readNothing fields).isSome
  | .rpin => (readRpin fields).isSome
  | .rfree => (readUnit fields).isSome
  | .rflsh => (readNothing fields).isSome
  | .rread => (readUnit fields).isSome
  | .nfetch => (readNothing fields).isSome
  | .nmask => (readNmask fields).isSome
  | .cmask => (readCmask fields).isSome
  | .snap => (readSnap fields).isSome
  | .cclr => (readNothing fields).isSome
  | .conf => (readConf fields).isSome
  | .cread => (readNothing fields).isSome
  | .lreset => (readNothing fields).isSome
  | .preset => (readNothing fields).isSome

/-- The commands that one port's processor gives (R172, R176), with the port. -/
def portOf : Instr → Option Port
  | .powerOnReset => none
  | .writeTransaction p _ => some p
  | .readTransaction p _ => some p
  | .ignoredTransaction p _ => some p
  | .sbase p _ => some p
  | .pushl p _ => some p
  | .dropl p _ => some p
  | .goff p _ => some p
  | .gread p _ => some p
  | .gwait p _ => some p
  | .sched p _ => some p
  | .unsch p _ => some p
  | .sread p _ => some p
  | .time p _ => some p
  | .order p _ => some p
  | .fence p _ => some p
  | .cancl p _ => some p
  | .refsh p _ => some p
  | .rtake p _ => some p
  | .rpin p _ => some p
  | .rfree p _ => some p
  | .rflsh p _ => some p
  | .rread p _ => some p
  | .nfetch p _ => some p
  | .nmask p _ => some p
  | .cmask p _ => some p
  | .snap p _ => some p
  | .cclr p _ => some p
  | .conf p _ => some p
  | .cread p _ => some p
  | .lreset p _ => some p
  | .preset p _ => some p
  | .gwaitLimit _ => none
  | .realCrossing _ => none
  | .syntheticCrossing => none
  | .layerExpiry _ => none
  | .applicationOfNextStated _ => none
  | .scheduleActivation _ => none
  | .openingOfReach => none
  | .settleInterval _ => none
  | .repeatSpacing _ => none
  | .claim => none
  | .frameWholeEnd => none
  | .collision _ => none
  | .backoffEnd => none
  | .answerWindow _ => none
  | .hold _ => none
  | .preamble _ _ => none
  | .bodyByte _ _ => none
  | .carrierEnd _ => none
  | .frameCompletion _ => none

/-- R173: the request message of a kind with its fields: the bytes after the transaction byte. -/
def messageOf (k : ReqKind) (fields : List Byte) : List Byte :=
  BitVec.ofNat 8 k.code :: BitVec.ofNat 8 fields.length :: fields

/-- The field bytes a command carries: those of its request, none for every other command. -/
def fieldsOf : Instr → List Byte
  | .sbase _ f => f
  | .pushl _ f => f
  | .dropl _ f => f
  | .goff _ f => f
  | .gread _ f => f
  | .gwait _ f => f
  | .sched _ f => f
  | .unsch _ f => f
  | .sread _ f => f
  | .time _ f => f
  | .order _ f => f
  | .fence _ f => f
  | .cancl _ f => f
  | .refsh _ f => f
  | .rtake _ f => f
  | .rpin _ f => f
  | .rfree _ f => f
  | .rflsh _ f => f
  | .rread _ f => f
  | .nfetch _ f => f
  | .nmask _ f => f
  | .cmask _ f => f
  | .snap _ f => f
  | .cclr _ f => f
  | .conf _ f => f
  | .cread _ f => f
  | .lreset _ f => f
  | .preset _ f => f
  | .powerOnReset => []
  | .writeTransaction _ _ => []
  | .readTransaction _ _ => []
  | .ignoredTransaction _ _ => []
  | .gwaitLimit _ => []
  | .realCrossing _ => []
  | .syntheticCrossing => []
  | .layerExpiry _ => []
  | .applicationOfNextStated _ => []
  | .scheduleActivation _ => []
  | .openingOfReach => []
  | .settleInterval _ => []
  | .repeatSpacing _ => []
  | .claim => []
  | .frameWholeEnd => []
  | .collision _ => []
  | .backoffEnd => []
  | .answerWindow _ => []
  | .hold _ => []
  | .preamble _ _ => []
  | .bodyByte _ _ => []
  | .carrierEnd _ => []
  | .frameCompletion _ => []

/-! ## The limits (R2, R27, R41, R56, R128, R136, R171, R181, R183) -/

/-- R171, R175, R181, R183: a port controller is in order: the notice queue keeps its limits, the attention line shows it,
the slot holds a response exactly in ANSWERED, and a request is in hand in WORKING only. -/
structure PortOk (c : PortCtl) : Prop where
  notices : c.notices.length ≤ 16
  ordinary : c.shedding = false → c.notices.length ≤ 15
  attention : c.attention = attentionOf c.notices c.noticeMask
  slot : c.slot.isSome = true ↔ c.state = .answered
  inHand : c.inHand.isSome = true → c.state = .working

/-- The limits that the manual sets on the tables, lists and queues. -/
structure Inv (s : State) : Prop where
  /-- R56 -/
  queue : s.disp.queue.length ≤ 16
  /-- R56 -/
  works : s.disp.queue.countP isWork ≤ 12
  /-- R136 -/
  table : s.exch.table.length ≤ 8
  /-- R128 -/
  receipts : s.rx.receipts.length ≤ 4
  /-- R27 -/
  schedule : s.schedule.length ≤ 48
  /-- R2 -/
  layers : ∀ g, (overridesOf (s.group g).holding).length ≤ 7
  /-- R41 -/
  history : s.time.history.length = 8
  /-- R171 -/
  ports : ∀ p, PortOk (s.port p)
  /-- R21, R175 -/
  waits : ∀ p, (s.waits.get p).isSome = true → (s.port p).state = .working ∧ (s.port p).inHand = none

/-! ## What is left alone -/

/-- A schedule entry without its mark. -/
def SchedEntry.unmarked (e : SchedEntry) : SchedEntry := { e with mark := .none }

/-- The parts of the state that no operation on the dispatch queue changes: `t` may differ from `s` in the queue, the
transmission in progress and the QUEUE SPACE marks, the exchanges, the stated settings, next stated and due flags of the
groups, the marks of the schedule entries, the frame on the line with its holder, the open waits, and the notices and responses
of the ports. -/
structure Keeps (s t : State) : Prop where
  time : t.time = s.time
  routes : t.routes = s.routes
  rx : t.rx = s.rx
  conf : t.conf = s.conf
  choices : t.choices = s.choices
  pending : t.pending = s.pending
  quiet : t.arb.quiet = s.arb.quiet
  busy : t.arb.busy = s.arb.busy
  claimOpen : t.arb.claimOpen = s.arb.claimOpen
  backoffEnd : t.tx.backoffEnd = s.tx.backoffEnd
  holding : ∀ g, (t.group g).holding = (s.group g).holding
  stampCounter : ∀ g, (t.group g).stampCounter = (s.group g).stampCounter
  schedule : t.schedule.map SchedEntry.unmarked = s.schedule.map SchedEntry.unmarked
  heldBack : t.heldBack = s.heldBack
  mask : ∀ p, (t.port p).mask = (s.port p).mask
  summary : ∀ p, (t.port p).summary = (s.port p).summary
  record : ∀ p, (t.port p).record = (s.port p).record
  noticeMask : ∀ p, (t.port p).noticeMask = (s.port p).noticeMask
  overrun : ∀ p, (t.port p).overrun = (s.port p).overrun
  dataOut : ∀ p, (t.port p).dataOut = (s.port p).dataOut

/-- The state with other layers in one group, its record otherwise as it stood (R2). -/
def withHolding (g : GroupNo) (h : Holding) (s : State) : State := updGroup g (fun r => { r with holding := h }) s

/-- A notice is in its place in a port's queue: with room for an ordinary notice at `s`, it joined the tail, and only later
notices stand behind it (R181). -/
def Told (p : Port) (b : NoticeBody) (s t : State) : Prop :=
  (s.port p).shedding = false → (s.port p).notices.length < 15
    → ∃ rest, (t.port p).notices = (s.port p).notices ++ { count := s.count, body := b } :: rest

/-- A notice is the last of a port's queue at `t`, behind those that stood there at `s` and those that came between; said where
the queue of `t` sheds nothing (R181). -/
def ToldLast (p : Port) (b : NoticeBody) (s t : State) : Prop :=
  (t.port p).shedding = false
    → ∃ between, (t.port p).notices = (s.port p).notices ++ between ++ [{ count := t.count, body := b }]

/-- R69, R94, R118: the frame of an entry that left the queue while it was on the line is abandoned: no transmission is in
progress, no frame is held, the holder is none, and the Transmitter is IDLE, or DORMANT with the station unit number 0. -/
structure Released (s t : State) : Prop where
  sending : t.disp.sending = none
  frame : t.tx.frame = none
  holder : t.arb.holder = .none
  state : t.tx.state = (if s.conf.station = 0 then .dormant else .idle)

/-! ## The users of the line (R81, R107, R109, R113) -/

/-- The Transmitter, the Line Arbiter and the Dispatcher agree on what is on the line. -/
structure LineInv (s : State) : Prop where
  /-- R113: a frame is held exactly in SENDING -/
  frame : s.tx.frame.isSome = true ↔ s.tx.state = .sending
  /-- R113: a backoff end is held exactly in BACKOFF -/
  backoff : s.tx.backoffEnd.isSome = true ↔ s.tx.state = .backoff
  /-- R107: the holder is none exactly when no frame is on the line -/
  holder : s.arb.holder = .none ↔ s.tx.state ≠ .sending
  /-- R81: a transmission is in progress exactly while an announcement entry holds the Transmitter -/
  sending : ∀ t, s.disp.sending = some t → s.arb.holder = .announcement t.group
  /-- R81 -/
  announcing : ∀ g, s.arb.holder = .announcement g → s.disp.sending.isSome = true
  /-- R113: DORMANT whenever the latest counted crossing did not carry PRESENT -/
  mains : s.time.state ≠ .present → s.tx.state = .dormant
  /-- R113: with no station unit number the Transmitter is DORMANT, but for a frame that runs to its end -/
  station : s.conf.station = 0 → s.tx.state = .dormant ∨ s.tx.state = .sending

/-! ## The schedule (R27) -/

/-- R27: the entries are in ascending order of activation, and no two are for one group and one count. -/
structure ScheduleInv (s : State) : Prop where
  order : s.schedule.Pairwise fun x y => x.activation ≤ y.activation
  unique : s.schedule.Pairwise fun x y => x.group = y.group → x.activation ≠ y.activation

/-- R31, R32, R50: what a counted crossing does for the entry of a group that is to be pre-announced: the earliest of its group,
its mark NONE, within its reach with the opening at an earlier crossing (log 8), of an ACTIVE group with its base on top, no
announcement entry, no due flag and no next stated, and with places for every entry of the list: its pre-announcement is entered
as a NEW timed announcement, and its mark is QUEUED. -/
def CrossingPreAnnounces (s t : State) : Prop :=
  ∀ (e : SchedEntry) (b : BaseLayer), e ∈ s.schedule → e.mark = .none →
    (∀ x ∈ s.schedule, x.group = e.group → x ≠ e → e.activation < x.activation) → s.count + 1 < e.activation →
    e.activation < s.count + 1 + min s.conf.leadWindow 65535 + announceSlots s.conf.broadcastGrade →
    (s.group e.group).holding = .active b [] → (∀ q ∈ s.disp.queue, isAnnOf e.group q = false) →
    (s.group e.group).due = false → (s.group e.group).next = none → s.disp.queue.length + s.schedule.length ≤ 16 →
    { e with mark := .queued } ∈ t.schedule
    ∧ Entry.ann
        { group := e.group, content := e.setting, activation := some e.activation, flavour := .new, stamp := none
          started := false, repeats := s.conf.defaultRepeat, done := 0, lastEnd := none, entryCount := s.count + 1
          origin := some e.origin, late := false } ∈ t.disp.queue

/-! ## The dispatch queue (R10, R19, R57, R61, R81) -/

/-- The first segment of a queue: the entries that are not behind a fence (R59). -/
def firstSegment (q : List Entry) : List Entry := q.takeWhile fun e => !isFence e

/-- The entries from the first fence on. -/
def afterFence (q : List Entry) : List Entry := q.dropWhile fun e => !isFence e

/-- R61: no segment holds two announcement entries of one group. -/
def Apart : List Entry → Prop
  | [] => True
  | .ann a :: es => (∀ e ∈ firstSegment es, isAnnOf a.group e = false) ∧ Apart es
  | .order _ :: es => Apart es
  | .fence _ :: es => Apart es

/-- What the manual says of the dispatch queue and of the records it serves. -/
structure QueueInv (s : State) : Prop where
  /-- R61 -/
  apart : Apart s.disp.queue
  /-- R59, R68: an entry in flight is behind no fence -/
  inFlight : ∀ e ∈ afterFence s.disp.queue, ∀ g, isInFlight g e = false
  /-- R19: a group with an announcement entry is ACTIVE -/
  active : ∀ a, Entry.ann a ∈ s.disp.queue → isActive (s.group a.group).holding = true
  /-- R57, R68: an entry in flight has its stamp, as a CATCH-UP entry always has -/
  stamp : ∀ a, Entry.ann a ∈ s.disp.queue → (a.started = true ∨ a.flavour = .catchUp) → a.stamp.isSome = true
  /-- R2, R19, R20: an INACTIVE group has no stated setting, no next stated and no due flag -/
  inactive : ∀ g, isActive (s.group g).holding = false →
    (s.group g).stated = none ∧ (s.group g).next = none ∧ (s.group g).due = false
  /-- R81: the transmission in progress is one of an entry in flight -/
  sending : ∀ t, s.disp.sending = some t → s.disp.queue.any (isInFlight t.group) = true

/-! ## The exchange table (R136, R137, R139) -/

/-- What the manual says of the exchange table, the ready order and the holder of the line. -/
structure ExchInv (s : State) : Prop where
  /-- R136 -/
  tags : (s.exch.table.map (·.tag)).Nodup
  /-- R139 -/
  readyOnce : s.exch.ready.Nodup
  /-- R136, R139 -/
  ready : ∀ t, t ∈ s.exch.ready ↔ ∃ x ∈ s.exch.table, x.tag = t ∧ x.state = .ready
  /-- R107, R137 -/
  sending : ∀ x ∈ s.exch.table, x.state = .sending ↔ s.arb.holder = .exchange x.tag
  /-- R107 -/
  holder : ∀ t, s.arb.holder = .exchange t → ∃ x ∈ s.exch.table, x.tag = t
  /-- R140 -/
  attempt : ∀ x ∈ s.exch.table, x.state = .sending → x.attempt.isSome = true
  /-- R137, R141, R144 -/
  deadline : ∀ x ∈ s.exch.table, x.deadline.isSome = true ↔ x.state = .waiting
  /-- R137, R148, R149 -/
  holdUntil : ∀ x ∈ s.exch.table, x.holdUntil.isSome = true ↔ x.state = .held
  /-- R137 -/
  cancelPending : ∀ x ∈ s.exch.table, x.cancelPending = true → x.state = .sending

/-! ## The receive pool and the receipt list (R121, R122, R128, R130, R131) -/

/-- What the manual says of the buffers, the phases, the held reports and the receipts. -/
structure RxInv (s : State) : Prop where
  /-- R121, R122: a phase that is ASSEMBLING has its own buffer -/
  phase : ∀ ph i e, s.rx.phases.get ph = .assembling i e → ∃ f, s.rx.pool.get i = .assembling f ∧ f.phase = ph
  /-- R121, R122: a buffer that is ASSEMBLING is its phase's -/
  buffer : ∀ i f, s.rx.pool.get i = .assembling f → ∃ e, s.rx.phases.get f.phase = .assembling i e
  /-- R108: a carrier is heard behind a frame only where the frame's carrier has ended -/
  again : ∀ ph, s.rx.again.get ph = true → ∃ i e, s.rx.phases.get ph = .assembling i (some e)
  /-- R130 -/
  heldOnce : s.rx.heldOrder.Nodup
  /-- R130 -/
  held : ∀ i, i ∈ s.rx.heldOrder ↔ ∃ r, s.rx.pool.get i = .held r
  /-- R121: at most 3 event reports are held -/
  reserve : s.rx.heldOrder.length ≤ 3
  /-- R131 -/
  receipts : s.rx.receipts.Pairwise fun r q => ¬ (r.unit = q.unit ∧ r.number = q.number)
  /-- R107, R128 -/
  onLine : ∀ r ∈ s.rx.receipts, r.onLine = true ↔ s.arb.holder = .receipt r.unit r.number
  /-- R107, R128 -/
  holder : ∀ u n, s.arb.holder = .receipt u n → ∃ r ∈ s.rx.receipts, r.unit = u ∧ r.number = n

/-! ## Routes (R160) -/

/-- R160: at most one entry for each unit number. -/
def RouteInv (c : RouteCache) : Prop :=
  ∀ i j r q, c.places.get i = some r → c.places.get j = some q → r.unit = q.unit → i = j

/-- No entry for the unit is held. -/
def Unrouted (u : UnitNo) (c : RouteCache) : Prop := ∀ j r, c.places.get j = some r → r.unit ≠ u

/-- R164: the place is the victim: unpinned, and with every place examined before it pinned. -/
def IsVictim (c : RouteCache) (i : Fin 64) : Prop :=
  (∃ r, c.places.get i = some r ∧ r.pinned = false)
    ∧ match c.lastUsed with
      | none => ∀ j < i, ∃ q, c.places.get j = some q ∧ q.pinned = true
      | some k => i ≠ k ∧ ∀ j, j ≠ k → (j - (k + 1)).val < (i - (k + 1)).val → ∃ q, c.places.get j = some q ∧ q.pinned = true

/-- R162, R163, R166: where an entry for a unit goes: its own place, else the lowest empty place, else the victim's. -/
def GoesTo (u : UnitNo) (c : RouteCache) (i : Fin 64) : Prop :=
  (∃ r, c.places.get i = some r ∧ r.unit = u)
    ∨ Unrouted u c ∧ c.places.get i = none ∧ (∀ j < i, c.places.get j ≠ none)
    ∨ Unrouted u c ∧ (∀ j, c.places.get j ≠ none) ∧ IsVictim c i

/-- R163, R164, R166: an entry for a unit finds no place: the unit has none, no place is empty, and every entry is pinned but
perhaps the one at the last-used place. -/
def FindsNoPlace (u : UnitNo) (c : RouteCache) : Prop :=
  Unrouted u c ∧ ∀ j, ∃ r, c.places.get j = some r ∧ (r.pinned = true ∨ c.lastUsed = some j)

/-! ## The debt of R8 -/

/-- R8: the group is owed an announcement: it is ACTIVE and its stated setting is absent or not its effective setting. -/
def Owed (g : GroupNo) (s : State) : Prop :=
  ∃ e, effectiveOf (s.group g).holding = some e ∧ ∀ x, (s.group g).stated = some x → x.setting ≠ e

/-- R8, R60: the debt is met: the due flag is set, or the queue holds a NEW entry of the group with the effective setting
that is immediate or whose activation count is reached. -/
def Met (g : GroupNo) (s : State) : Prop :=
  (s.group g).due = true
    ∨ ∃ a e, Entry.ann a ∈ s.disp.queue ∧ effectiveOf (s.group g).holding = some e ∧ a.group = g ∧ a.flavour = .new
        ∧ a.content = e ∧ (∀ v, a.activation = some v → v ≤ s.count)

/-- R5, R23, R34: expiries or activations of the group with a count at or before `c`, which has come, are still to act, and
they leave it the effective setting `f` under a top layer of origin `p`: those of the highest override that does not expire;
with none those of the last of the entries, whose base has origin none; with none of these the base's. -/
def EventsLeave (c : Count) (g : GroupNo) (s : State) (f : Setting) (p : Option Port) : Prop :=
  c ≤ s.count
    ∧ ((∃ o ∈ overridesOf (s.group g).holding, ∃ v, o.expiry = some v ∧ v ≤ c)
        ∨ ∃ e ∈ s.schedule, e.group = g ∧ e.activation ≤ c)
    ∧ ∃ b os, (s.group g).holding = .active b os
      ∧ match os.filter (fun o => !expiryPast o.expiry c),
          (s.schedule.filter fun e => decide (e.group = g ∧ e.activation ≤ c)).getLast? with
        | o :: _, _ => f = o.setting ∧ p = some o.origin
        | [], some e => f = e.setting ∧ p = none
        | [], none => f = b.setting ∧ p = topOrigin (.active b [])

/-- R12, R28, R34, R36: expiries or activations of the group, their count come, are still to act, and leave it an effective
setting that is stated, or that a NEW entry carries which is immediate or whose activation count is reached: its announcement is
not owed once they have acted (log 32). -/
def LeftToEvents (g : GroupNo) (s : State) : Prop :=
  ∃ c f p, EventsLeave c g s f p
    ∧ ((∃ x, (s.group g).stated = some x ∧ x.setting = f)
        ∨ ∃ a, Entry.ann a ∈ s.disp.queue ∧ a.group = g ∧ a.flavour = .new ∧ a.content = f
            ∧ ∀ v, a.activation = some v → v ≤ s.count)

/-- R5, R36: expiries or activations of the group, their count come, are still to act, and leave it the effective setting it
has, under a top layer of another origin: the last of them requests it, with the origin that R5 gives it (log 37). -/
def LeftForOrigin (g : GroupNo) (s : State) : Prop :=
  ∃ c f p, EventsLeave c g s f p ∧ effectiveOf (s.group g).holding = some f ∧ topOrigin (s.group g).holding ≠ p

/-- R8: every group that is owed an announcement has an entry or its due flag, or is left to events still to act (log 32,
log 37). -/
def DebtInv (s : State) : Prop :=
  ∀ g, Owed g s →
    (s.group g).due = true ∨ (∃ a, Entry.ann a ∈ s.disp.queue ∧ a.group = g) ∨ LeftToEvents g s
      ∨ LeftForOrigin g s

/-! ## Moves and fences (R73, R75) -/

/-- R73, R75: no move and no departure of a fence is left undone. -/
structure MovesInv (s : State) : Prop where
  /-- R73: with an exchange free, an order in the look-ahead window is behind a fence -/
  orders : s.exch.table.length < 8 → ∀ ahead o behind, s.disp.queue = ahead ++ .order o :: behind → ahead.length < 4 →
    ∃ e ∈ ahead, isFence e = true
  /-- R75: a fence at the head waits for a live exchange with its mark -/
  fence : ∀ p behind, s.disp.queue = .fence p :: behind → ∃ x ∈ s.exch.table, x.fenceMark = true

/-! ## The bytes of responses and notices (R20, R173, R174, R184)

A layout is a list of fields, each its width in bytes and the number it carries. -/

/-- R173, R174: the bytes are the fields of the layout, one behind the other, each most significant byte first. -/
def Spells : List (Nat × Nat) → List Byte → Prop
  | [], bs => bs = []
  | (n, v) :: fs, bs => ∃ head rest, bs = head ++ rest ∧ head.length = n ∧ ofBE head = v % 256 ^ n ∧ Spells fs rest

/-- R174: a field that may be absent. -/
def layOpt {α : Type} (f : α → List (Nat × Nat)) : Option α → List (Nat × Nat)
  | none => [(1, 0)]
  | some x => (1, 1) :: f x

/-- R174: a flag. -/
def layFlag (b : Bool) : Nat × Nat := (1, if b then 1 else 0)

/-- R174, R100: a tariff setting. -/
def laySetting (st : Setting) : List (Nat × Nat) := [(1, st.rate), (1, st.relays.toNat), (1, st.level)]

/-- R174: a relay path. -/
def layPath (p : List UnitNo) : List (Nat × Nat) := (1, p.length) :: p.map fun u => (3, u)

/-- R41, R174: a mains state. -/
def layMains (m : MainsState) : Nat × Nat :=
  (1, match m with
    | .starting => 1
    | .present => 2
    | .lost => 3)

/-- R174: a phase. -/
def layPhase (ph : Phase) : Nat × Nat :=
  (1, match ph with
    | .L1 => 1
    | .L2 => 2
    | .L3 => 3)

/-- R174: a grade. -/
def layGrade (g : Grade) : Nat × Nat :=
  (1, match g with
    | .g1 => 1
    | .g2 => 2
    | .g3 => 3)

/-- R174: a port. -/
def layPort (p : Port) : Nat × Nat :=
  (1, match p with
    | .A => 1
    | .B => 2)

/-- R3, R174: an override class. -/
def layClass (c : OverrideClass) : Nat × Nat :=
  (1, match c with
    | .priceEvent => 1
    | .loadRelief => 2
    | .networkEmergency => 3)

/-- R27, R174: a pre-announced mark. -/
def layMark (m : Mark) : Nat × Nat :=
  (1, match m with
    | .none => 1
    | .queued => 2
    | .completed => 3)

/-- R173: a condition. -/
def layCondition (c : Condition) : Nat × Nat :=
  (1, match c with
    | .range => 1
    | .overflow => 2
    | .underflow => 3
    | .past => 4)

/-- R174, R185: a parameter's value. -/
def layParam (q : ParamId) (v : Nat) : Nat × Nat := (if q = .station then 3 else 2, v)

/-- R174, R185: the fields of a CONF: for each parameter named its number, then its value. -/
def layConf (ns : List (ParamId × Nat)) : List (Nat × Nat) :=
  ns.flatMap fun x => [(1, allParams.idxOf x.1 + 1), layParam x.1 x.2]

/-- R20: a layer (log 20). -/
def layLayer : LayerReading → List (Nat × Nat)
  | .base l =>
    [(1, 1), (1, 0)] ++ laySetting l.setting
      ++ [match l.origin with
          | .port p => layPort p
          | .schedule => (1, 3)]
      ++ [(1, 0), (1, 0)]
  | .override l =>
    [(1, 2), (1, 1), layClass l.cls] ++ laySetting l.setting ++ [layPort l.origin] ++ layOpt (fun c => [(5, c)]) l.expiry
      ++ [(1, 1), (5, l.pushed)]

/-- R17, R23, R34, R49, R72, R95, R96, R123, R132, R151, R155, R156, R181, R185, R188: a notice's own fields (log 20). -/
def layNoticeBody : NoticeBody → List (Nat × Nat)
  | .announcementEnded n =>
    [(1, match n.reason with
        | .completed => 1
        | .completedLate => 2
        | .superseded => 3), (1, n.group.val), (1, if n.flavour = .new then 1 else 2)]
      ++ laySetting n.content ++ layOpt (fun c => [(5, c)]) n.activation
      ++ [(2, (n.stamp.getD 0).toNat), (1, n.done)] ++ layOpt (fun c => [(5, c)]) n.lastEnd
  | .layerEnded .evicted g cls st => [(1, 1), layClass cls] ++ laySetting st ++ [(1, g.val)]
  | .layerEnded .expired g cls st => [(1, 2), (1, g.val), layClass cls] ++ laySetting st
  | .scheduleApplied g a st m => [(1, g.val), (5, a)] ++ laySetting st ++ [layMark m]
  | .orderEnded n =>
    [(1, n.reference.toNat), (3, n.unit),
      (1, match n.kind with
        | .assign _ => 1
        | .query _ => 2
        | .test => 3),
      (1, match n.ending with
        | .accepted => 1
        | .rejected => 2
        | .unreached => 3
        | .deferredOut => 4
        | .cancelled => 5)]
      ++ layOpt (fun t => [(1, t.toNat)]) n.tag ++ [(2, min 65535 n.attempts)] ++ layOpt (fun g => [layGrade g]) n.lastGrade
      ++ layOpt (fun r => [(1, match r with
          | .limited k => k
          | .unlimited => 7)]) n.retries
      ++ layOpt (fun d => [(1, d)]) n.defers
      ++ layOpt (fun r => [(1, r.group)] ++ laySetting r.setting ++ [(2, r.stamp.toNat)]) n.reply
      ++ layOpt (fun c => [(1, match c with
          | .foreign => 1
          | .unordered => 2
          | .same => 3
          | .behind => 4)]) n.comparison
  | .reportWaiting u n held => [(3, u), (1, n.toNat), (1, held)]
  | .receiveLost ph c => [layPhase ph, (5, c)]
  | .mainsChange l e c => [layMains l, layMains e, (5, c)]
  | .lineReset c => [(5, c)]
  | .configChanged cs =>
    (2, ((allParams.zipIdx.filter fun x => decide (x.1 ∈ cs.map Prod.fst)).map fun x => 2 ^ x.2).sum)
      :: cs.flatMap fun x => [layParam x.1 x.2.1, layParam x.1 x.2.2]
  | .queueSpace => []
  | .overflow d lost last => [(2, d), (2, lost.toNat), (5, last)]

/-- R174, R184: a notice, with the number of its kind and the mains count at which it was queued. -/
def layNotice (n : Notice) : List (Nat × Nat) :=
  [(1, match n.body with
      | .announcementEnded _ => 1
      | .layerEnded _ _ _ _ => 2
      | .scheduleApplied _ _ _ _ => 3
      | .orderEnded _ => 4
      | .reportWaiting _ _ _ => 5
      | .receiveLost _ _ => 6
      | .mainsChange _ _ _ => 7
      | .lineReset _ => 8
      | .configChanged _ => 9
      | .queueSpace => 10
      | .overflow _ _ _ => 11), (5, n.count)] ++ layNoticeBody n.body

/-- R20, R39, R53, R133, R166, R168, R169, R179, R182, R186: the fields of a response (log 20). -/
def layBody : ResponseBody → List (Nat × Nat)
  | .empty => []
  | .group r =>
    [(1, if r.active then 2 else 1), (1, r.layerCount), (1, r.layers.length)] ++ r.layers.flatMap layLayer
      ++ layOpt (fun x => laySetting x.setting ++ [(2, x.stamp.toNat)]) r.stated
      ++ layOpt (fun x => laySetting x.setting ++ [(2, x.stamp.toNat), (5, x.activation)]) r.next
      ++ [(2, r.stampCounter.toNat), layFlag r.due,
        (1, match r.annState with
          | .none => 1
          | .queued => 2
          | .inFlight => 3), (1, if r.settled then 1 else 2)]
  | .schedule held es =>
    [(1, held), (1, es.length)]
      ++ es.flatMap fun x => [(1, x.1), (1, x.2.group.val), (5, x.2.activation)] ++ laySetting x.2.setting
        ++ [layPort x.2.origin, layMark x.2.mark]
  | .time c st e => [(5, c), layMains st, (4, e)]
  | .report r n =>
    [(3, r.source), (1, r.number.toNat), (1, r.data.length)] ++ (r.data.map fun b => (1, b.toNat)) ++ layPath r.path
      ++ [layPhase r.phase, layGrade r.grade, (5, r.count), (1, n)]
  | .place i => [(1, i.val)]
  | .flushed r p => [(1, r), (1, p)]
  | .route r held pinned =>
    (match r with
      | none => []
      | some x =>
        (1, x.place.val) :: layPath x.route.path ++ [layPhase x.route.phase, layGrade x.route.grade, layFlag x.route.pinned
          , (5, x.route.written), layFlag x.lastUsed])
      ++ [(1, held), (1, pinned)]
  | .notice n k =>
    (match n with
      | none => []
      | some x => layNotice x)
      ++ [(1, k)]
  | .conditions m sm r o =>
    ([m, sm].flatMap fun c => [layFlag c.range, layFlag c.overflow, layFlag c.underflow, layFlag c.past])
      ++ layOpt (fun x => [layCondition x.condition, (1, x.request.code), (1, x.group.val)]) r ++ [layFlag o]
  | .params c => allParams.map fun q => layParam q (c.value q)

/-- R173: the envelope of a response whose fields take `n` bytes. -/
def layEnvelope (r : Response) (n : Nat) : List (Nat × Nat) :=
  [(1, match r.kind with
      | some k => k.code
      | none => 0),
    (1, match r.outcome with
      | .done => 0
      | .adjusted => 1
      | .full => 2
      | .notFound => 3
      | .inactive => 4
      | .condition => 5
      | .wrongPort => 6
      | .malformed => 7),
    match r.condition with
      | some c => layCondition c
      | none => (1, 0),
    (1, n)]

/-! ## Several commands in turn -/

/-- The commands are taken one after another, each with a next state. -/
def Runs : List Instr → State → State → Prop
  | [], s, t => t = s
  | c :: cs, s, t => ∃ u, exec c s = .next u ∧ Runs cs u t

/-! ## A setting after RANGE (R13, R14) -/

/-- R14: a request's setting goes on: as it stands when it is in its ranges; clamped into them, its condition recorded and its
outcome ADJUSTED, when it is not and the port masks RANGE. -/
def Ranged (p : Port) (k : ReqKind) (g : GroupNo) (st st' : Setting) (adj : Bool) (s u : State) : Prop :=
  ((1 ≤ st.rate ∧ st.rate ≤ 8 ∧ st.level ≤ 9) ∧ st' = st ∧ adj = false ∧ u = s)
    ∨ (¬ (1 ≤ st.rate ∧ st.rate ≤ 8 ∧ st.level ≤ 9) ∧ (s.port p).mask.range = true
        ∧ st' = { rate := max 1 (min 8 st.rate), relays := st.relays, level := min 9 st.level } ∧ adj = true
        ∧ u = updPort p (fun c => c.record1 .range k g) s)

/-! ## Open GWAITs (R22) -/

/-- R22: the open GWAITs after an event: one whose group is left settled has been answered SETTLED with the record as it stands,
and every other stays open. -/
def WaitsSettled (s t : State) : Prop :=
  ∀ p w, s.waits.get p = some w →
    ((readGroup w.group 0 t).settled = true → t.waits.get p = none
      ∧ Answered p .gwait .done none (.group (readGroup w.group 0 t)) t)
    ∧ ((readGroup w.group 0 t).settled = false → t.waits.get p = some w)

end Sys2Proof.Machine
end

