-- ==== Sys2Proof/Certificates/Slice0/Obligations.lean ====
section
/-! DEFINITION. The statements about the model, one `def Obligations.<Name> : Prop` each, in the order of OBLIGATIONS.json. -/

open Sys2Proof Sys2Proof.Machine

/-! ## The machine -/

/-- What a step is: the command at the front of the queue runs on the state with the queue's rest; on an empty queue the part
idles (the model's choice, log 1). -/
def Obligations.StepRunsFrontCommand : Prop :=
  (∀ (s : State) (c : Instr) (rest : List Instr), s.pending = c :: rest → step s = exec c (s.setPending rest))
    ∧ ∀ s : State, s.pending = [] → step s = .next s

/-- No command ends in a fault or a refusal, and none touches the queue of waiting commands (R176, R124, R125: what the part
cannot take it answers or abandons). -/
def Obligations.EveryCommandCompletes : Prop :=
  ∀ (c : Instr) (s : State), ∃ t, exec c s = .next t ∧ t.pending = s.pending

/-- The reset state meets every invariant stated below. -/
def Obligations.ResetMeetsInvariants : Prop :=
  Inv State.reset ∧ LineInv State.reset ∧ QueueInv State.reset ∧ ExchInv State.reset ∧ RxInv State.reset
    ∧ ScheduleInv State.reset ∧ RouteInv State.reset.routes ∧ DebtInv State.reset ∧ MovesInv State.reset

/-- R2, R21, R27, R41, R56, R128, R136, R160, R171, R175, R181, R183: every step keeps the limits of the tables, lists and
queues, every port controller in order, the schedule in order with no two entries for one group and count, and at most one
route for a unit. -/
def Obligations.StepKeepsLimits : Prop :=
  ∀ s t : State, step s = .next t →
    (Inv s → Inv t) ∧ (ScheduleInv s → ScheduleInv t) ∧ (RouteInv s.routes → RouteInv t.routes)

/-- R81, R107, R113: every step keeps the Transmitter, the Line Arbiter and the Dispatcher agreed on what is on the line. -/
def Obligations.StepKeepsLine : Prop := ∀ s t : State, LineInv s → step s = .next t → LineInv t

/-- R19, R20, R59, R61, R68, R81: every step keeps the law of the dispatch queue. -/
def Obligations.StepKeepsQueueLaw : Prop := ∀ s t : State, QueueInv s → step s = .next t → QueueInv t

/-- R107, R136, R137, R139, R140: every step keeps the exchange table, the ready order and the holder in agreement. -/
def Obligations.StepKeepsExchanges : Prop :=
  ∀ s t : State, LineInv s → ExchInv s → step s = .next t → ExchInv t

/-- R107, R121, R122, R128, R130, R131: every step keeps the buffers, the phases, the held reports and the receipts in
agreement. -/
def Obligations.StepKeepsReceiver : Prop :=
  ∀ s t : State, LineInv s → RxInv s → step s = .next t → RxInv t

/-- R50: the mains count advances by one at a counted crossing, returns to 0 at power-on, and changes at no other command. R7:
a group's stamp counter advances by one at a claim, returns to 0 at power-on, and changes at no other command. R185: the
configuration changes by CONF and at power-on alone. R171, R177 to R180, R183, R187: a port's condition mask, summary, record,
notice mask and overrun marker are changed by that port's own commands alone, and by power-on. -/
def Obligations.OnlyTheseCommandsChange : Prop :=
  ∀ (c : Instr) (s t : State), exec c s = .next t →
    (t.count = s.count
      ∨ (t.count = s.count + 1 ∧ (c = .syntheticCrossing ∨ ∃ x, c = .realCrossing x))
      ∨ (t.count = 0 ∧ c = .powerOnReset))
    ∧ (∀ g, (t.group g).stampCounter = (s.group g).stampCounter
      ∨ ((t.group g).stampCounter = (s.group g).stampCounter + 1 ∧ c = .claim)
      ∨ ((t.group g).stampCounter = 0 ∧ c = .powerOnReset))
    ∧ (t.conf = s.conf ∨ (∃ p f, c = .conf p f) ∨ (t.conf = Params.reset ∧ c = .powerOnReset))
    ∧ ∀ p, portOf c ≠ some p → c ≠ .powerOnReset →
      (t.port p).mask = (s.port p).mask ∧ (t.port p).summary = (s.port p).summary ∧ (t.port p).record = (s.port p).record
        ∧ (t.port p).noticeMask = (s.port p).noticeMask ∧ (t.port p).overrun = (s.port p).overrun

/-- R160, R162, R164, R165, R168: a pinned route stays in its place with every field through every command but an RPIN, an
RFREE and power-on. -/
def Obligations.PinnedRouteStays : Prop :=
  ∀ (c : Instr) (s t : State) (i : Fin 64) (r : Route), exec c s = .next t → s.routes.places.get i = some r → r.pinned = true →
    (∀ p f, c ≠ .rpin p f) → (∀ p f, c ≠ .rfree p f) → c ≠ .powerOnReset → t.routes.places.get i = some r

/-! ## Resets -/

/-- R25, R40, R41, R78, R81, R107, R113, R135, R158, R170, R171, R185, R189: power-on puts every block into its power-on
state, whatever it was; the spacing history stands at eight spacings of 10,000. Every other field of the model's own is at its
reset value too (log 28): no line activity (log 16), no open claims (log 10), no body accepted (log 19), no carrier behind a
frame (log 17), nothing held back, no output bytes (log 22); but the waiting commands and the count of free values stay
(log 4). -/
def Obligations.PowerOnResetsEveryBlock : Prop :=
  ∀ s : State, ∃ t, exec .powerOnReset s = .next t
    ∧ (∀ g, (t.group g).holding = .inactive ∧ (t.group g).stated = none ∧ (t.group g).next = none
        ∧ (t.group g).stampCounter = 0 ∧ (t.group g).due = false)
    ∧ (∀ p, t.waits.get p = none) ∧ t.schedule = []
    ∧ t.disp.queue = [] ∧ t.disp.sending = none ∧ (∀ p, t.disp.spaceMarks.get p = false)
    ∧ t.exch.table = [] ∧ t.exch.tagCounter = 0 ∧ t.exch.ready = []
    ∧ (∀ i, t.routes.places.get i = none) ∧ t.routes.lastUsed = none
    ∧ t.arb.holder = .none ∧ t.arb.quiet = false ∧ t.arb.busy = false ∧ t.arb.claimOpen = false ∧ t.heldBack = false
    ∧ t.tx.state = .dormant ∧ t.tx.frame = none ∧ t.tx.backoffEnd = none
    ∧ (∀ i, t.rx.pool.get i = .free) ∧ (∀ ph, t.rx.phases.get ph = .quiet ∧ t.rx.again.get ph = false)
    ∧ t.rx.heldOrder = [] ∧ t.rx.receipts = [] ∧ t.rx.lost = false ∧ t.rx.accepted = []
    ∧ t.time.count = 0 ∧ t.time.state = .starting
    ∧ t.time.history = [10000, 10000, 10000, 10000, 10000, 10000, 10000, 10000] ∧ t.time.period = 10000
    ∧ t.time.reference = none ∧ t.time.lastCounted = none ∧ t.time.run = 0 ∧ t.time.due = none
    ∧ (∀ p, (t.port p).state = .idle ∧ (t.port p).slot = none ∧ (t.port p).inHand = none ∧ (t.port p).overrun = false
        ∧ (t.port p).dataOut = [] ∧ (∀ x, (t.port p).mask.get x = true ∧ (t.port p).summary.get x = false) ∧ (t.port p).record = none
        ∧ (t.port p).notices = [] ∧ (t.port p).shedding = false ∧ (t.port p).noticeMask = 0 ∧ (t.port p).attention = false)
    ∧ t.conf = { station := 0, broadcastGrade := .g2, broadcastHop := 2, leadWindow := 30000, settleInterval := 50
                 repeatSpacing := 20, defaultRepeat := 2, answerMargin := 8, retryLimit := 3, holdInterval := 200
                 reportPort := .A, maxBody := 64 }
    ∧ t.pending = s.pending ∧ t.choices = s.choices

/-- R22, R26, R40, R72, R79, R109, R119, R135, R159, R188: what a line reset leaves. The work is gone, each order and live
exchange with its ORDER ENDED notice; the line is released; the receive pool is free, and a phase on which a carrier is heard
is IGNORING; the layers, the stamp counters, next stated, the schedule but for its QUEUED marks, the routes, the configuration
and the Time Base stand; the stated setting of a group whose entry was in flight is absent. A next stated whose count has come
is applied first (R12; log 34). Every ACTIVE group whose setting is owed has its announcement or its due flag; the ports with
a QUEUE SPACE mark have their notice; open GWAITs are answered UNSETTLED; the other port has its LINE RESET notice, behind
those of the endings (log 23); the port is answered DONE. Until the next crossing no pre-announcement is asked for
(`heldBack`). Which claims stay open is log 10's choice; a phase whose frame had no more carrier is QUIET (log 18), but where
another carrier is heard behind it (log 17). -/
def Obligations.LineResetClearsTheLine : Prop :=
  ∀ (p : Port) (s : State), PortIdle p s → ∃ t, exec (.lreset p []) s = .next t
    ∧ Answered p .lreset .done none .empty t
    ∧ (∀ e ∈ t.disp.queue, ∃ a, e = Entry.ann a ∧ a.flavour = .new ∧ a.started = false ∧ a.activation = none
        ∧ effectiveOf (s.group a.group).holding = some a.content ∧ a.entryCount = s.count)
    ∧ (t.disp.queue.filterMap fun e => match e with
        | .ann a => some a.group.val
        | _ => none).Pairwise (· < ·)
    ∧ t.disp.sending = none ∧ t.exch.table = [] ∧ t.exch.ready = [] ∧ t.exch.tagCounter = s.exch.tagCounter
    ∧ t.tx.frame = none ∧ t.tx.backoffEnd = none
    ∧ t.tx.state = (if s.conf.station ≠ 0 ∧ s.time.state = .present then .idle else .dormant)
    ∧ t.arb.holder = .none ∧ t.arb.quiet = s.arb.quiet ∧ t.arb.busy = s.arb.busy
    ∧ (s.tx.state = .idle → t.arb.claimOpen = s.arb.claimOpen)
    ∧ ((s.tx.state = .sending ∨ s.tx.state = .dormant) → t.arb.claimOpen = false)
    ∧ (∀ i, t.rx.pool.get i = .free) ∧ t.rx.heldOrder = [] ∧ t.rx.receipts = [] ∧ t.rx.lost = false
    ∧ (∀ ph, t.rx.again.get ph = false ∧ t.rx.phases.get ph = (match s.rx.phases.get ph, s.rx.again.get ph with
        | .quiet, false => .quiet
        | .assembling _ (some _), false => .quiet
        | _, _ => .ignoring))
    ∧ (∀ g, (t.group g).holding = (s.group g).holding ∧ (t.group g).stampCounter = (s.group g).stampCounter
        ∧ (Owed g t → Met g t)
        ∧ ((∃ e ∈ s.disp.queue, isInFlight g e = true) → (t.group g).stated = none)
        ∧ ((∀ n, (s.group g).next = some n → s.count < n.activation) →
            (t.group g).next = (s.group g).next
            ∧ ((∀ e ∈ s.disp.queue, isInFlight g e = false) → (t.group g).stated = (s.group g).stated))
        ∧ (∀ n, (s.group g).next = some n → n.activation ≤ s.count →
            (t.group g).next = none
            ∧ ((∀ e ∈ s.disp.queue, isInFlight g e = false) →
                (t.group g).stated = some { setting := n.setting, stamp := n.stamp })))
    ∧ t.schedule = s.schedule.map (fun e => if e.mark = .queued then { e with mark := .none } else e)
    ∧ t.heldBack = true ∧ t.time = s.time ∧ t.routes = s.routes ∧ t.conf = s.conf
    ∧ (∀ q, t.waits.get q = none ∧ t.disp.spaceMarks.get q = false
        ∧ (t.port q).mask = (s.port q).mask ∧ (t.port q).noticeMask = (s.port q).noticeMask)
    ∧ (∀ w, s.waits.get (otherPort p) = some w →
        ∃ r, Answered (otherPort p) .gwait .done none (.group r) t ∧ r.settled = false)
    ∧ (∀ q, (t.port q).shedding = false →
        (s.disp.spaceMarks.get q = true → { count := s.count, body := .queueSpace } ∈ (t.port q).notices)
        ∧ (∀ o, Entry.order o ∈ s.disp.queue → o.port = q →
            { count := s.count, body := (.orderEnded
              { reference := o.reference, unit := o.unit, kind := o.kind, ending := .cancelled, tag := none, attempts := 0
                lastGrade := none, retries := none, defers := none, reply := none, comparison := none }) }
              ∈ (t.port q).notices)
        ∧ ((s.exch.table.map (·.tag)).Nodup → ∀ x ∈ s.exch.table, x.port = q →
            { count := s.count, body := (.orderEnded
              { reference := x.reference, unit := x.unit, kind := x.kind, ending := .cancelled, tag := some x.tag
                attempts := x.attempts, lastGrade := x.attempt.map (·.grade), retries := some x.retries
                defers := some x.defers, reply := none, comparison := none }) } ∈ (t.port q).notices))
    ∧ ((t.port (otherPort p)).shedding = false →
        (t.port (otherPort p)).notices.getLast? = some { count := s.count, body := .lineReset s.count })

/-- R187: what a PRESET leaves: the port's queue of notices, masks, marks and conditions as R187 states, the port's QUEUE
SPACE mark clear, the port answered DONE, and nothing else changed. -/
def Obligations.PortResetActsOnItsPortAlone : Prop :=
  ∀ (p : Port) (s : State), PortIdle p s →
    exec (.preset p []) s = .next (answer p .preset .done none .empty
      (fun c =>
        { c with
          notices := [], attention := false, shedding := false, overrun := false
          mask := { range := true, overflow := true, underflow := true, past := true }, noticeMask := 0
          summary := { range := false, overflow := false, underflow := false, past := false }, record := none })
      (s.setDisp { s.disp with spaceMarks := s.disp.spaceMarks.set p false }))

/-! ## Transactions (R172, R173, R175) -/

/-- R172, R173, R175: a write to an IDLE port is taken when its envelope is well formed and answered MALFORMED when it is not;
a write to a busy port sets the overrun marker and does nothing else. -/
def Obligations.WriteIsTakenRefusedOrDiscarded : Prop :=
  ∀ (p : Port) (bytes : List Byte) (s : State),
    (PortIdle p s → ∀ r, openEnvelope bytes = some r →
      exec (.writeTransaction p bytes) s = .next (updPort p (fun c => { c with state := .working, inHand := some r }) s))
    ∧ (PortIdle p s → openEnvelope bytes = none →
      exec (.writeTransaction p bytes) s = .next (updPort p (fun c =>
        { c with
          state := .answered, inHand := none
          slot := some { kind := messageKind bytes, outcome := .malformed, condition := none, body := .empty } }) s))
    ∧ (¬ PortIdle p s →
      exec (.writeTransaction p bytes) s = .next (updPort p (fun c => { c with overrun := true }) s))

/-- R172, R173, R174, R184, R185: a read returns the status byte, whose bits are the port state, the attention line, the
overrun marker and whether a notice is held, and in ANSWERED the response behind it; there it also moves the port to IDLE,
empties the slot and clears the overrun marker. In IDLE and WORKING it changes nothing but the output. The response is its
envelope and its fields, and a notice in it its kind, its count and its own fields, each a number of the width that R174 gives
it, most significant byte first; requests are numbered 1 to 28 and parameters 1 to 12. The order of LAYER ENDED is that of R17
for EVICTED and that of R23 for EXPIRED. Which bytes are returned is kept in an output field of the model (log 22); the
presence bytes, the codes of LAYER ENDED and the widths of CREAD are log 20's reading of R174. -/
def Obligations.ReadReturnsStatusAndResponse : Prop :=
  (∀ (p : Port) (n : Nat) (s : State), ∃ (b : Byte) (t : State), exec (.readTransaction p n) s = .next t
    ∧ (b.toNat % 4 = match (s.port p).state with
        | .idle => 0
        | .working => 1
        | .answered => 2)
    ∧ b.getLsbD 2 = (s.port p).attention ∧ b.getLsbD 3 = (s.port p).overrun
    ∧ b.getLsbD 4 = !(s.port p).notices.isEmpty ∧ b.toNat < 32
    ∧ (∀ r, (s.port p).state = .answered → (s.port p).slot = some r →
        t = updPort p (fun c =>
          { c with state := .idle, slot := none, overrun := false, dataOut := b :: (encResponse r).take n }) s)
    ∧ ((s.port p).state ≠ .answered → t = updPort p (fun c => { c with dataOut := [b] }) s))
  ∧ (∀ r : Response, ∃ envelope fields, encResponse r = envelope ++ fields ∧ Spells (layEnvelope r fields.length) envelope
      ∧ Spells (layBody r.body) fields)
  ∧ ([ReqKind.sbase, .pushl, .dropl, .goff, .gread, .gwait, .sched, .unsch, .sread, .time, .order, .fence, .cancl, .refsh, .rtake,
      .rpin, .rfree, .rflsh, .rread, .nfetch, .nmask, .cmask, .snap, .cclr, .conf, .cread, .lreset, .preset].map
        ReqKind.code = (List.range 28).map (· + 1))
  ∧ allParams = [.station, .broadcastGrade, .broadcastHop, .leadWindow, .settleInterval, .repeatSpacing, .defaultRepeat,
      .answerMargin, .retryLimit, .holdInterval, .reportPort, .maxBody]

/-- R66, R89, R172: an ignored transaction and the running out of a settle interval or of a repeat spacing change nothing that
is held; what the two intervals do is to make an entry eligible from their count on. The two rows store nothing (log 9). -/
def Obligations.IntervalsMakeEligible : Prop :=
  (∀ (p : Port) (b : Byte) (s : State), exec (.ignoredTransaction p b) s = .next s)
    ∧ (∀ (n : Nat) (s : State), exec (.settleInterval n) s = .next s ∧ exec (.repeatSpacing n) s = .next s)
    ∧ ∀ (s : State) (a : Ann),
        (eligible s a = true ↔
          (a.done = 0 → a.entryCount + s.conf.settleInterval ≤ s.count)
            ∧ (a.done ≠ 0 → ∀ e, a.lastEnd = some e → e + s.conf.repeatSpacing ≤ s.count)
            ∧ ∀ v, a.activation = some v → v - (s.count + announceSlots s.conf.broadcastGrade) ≤ 65535)

/-- R3, R13, R20, R71, R100, R166, R173, R174, R178, R183, R185: requests and their readers agree. Every request of at most 70
field bytes is read back from its message, and whatever is read is the message of the request it gives; the fields of SBASE,
PUSHL, DROPL, GREAD, SCHED, UNSCH, ORDER and RPIN are read back from their bytes. Each form of fields is read exactly
where the bytes spell what is read, with a group 0 to 63, a class 1 to 3, a unit of an ORDER or a path 1 to
16,777,214, each presence byte and flag 0 or 1, at most 3 relays, order data of a TEST ignored, an absent start layer 0, and a
CONF that names a parameter, none twice, and no report port but A and B. Bits 7 to 4 of a relay set byte may be any (log 21).
That ORDER's group stands behind a presence byte is the model's reading of R174 (log 20). -/
def Obligations.RequestsRoundTrip : Prop :=
  (∀ (k : ReqKind) (fields : List Byte), fields.length ≤ 70 →
    openEnvelope (messageOf k fields) = some { kind := k, fields := fields })
  ∧ (∀ (bytes : List Byte) (r : Request), openEnvelope bytes = some r →
      bytes = messageOf r.kind r.fields ∧ r.fields.length ≤ 70)
  ∧ (∀ (g : GroupNo) (st : Setting), st.rate < 256 → st.level < 256 →
    readSbase (enc1 g.val ++ encSetting st) = some (g, st))
  ∧ (∀ f : PushFields, f.setting.rate < 256 → f.setting.level < 256 → (∀ e, f.expiry = some e → e < 2 ^ 40) →
    readPushl (enc1 f.group.val ++ enc1 (classNo f.cls) ++ encSetting f.setting ++ encOpt encCount f.expiry) = some f)
  ∧ (∀ (g : GroupNo) (c : Option OverrideClass),
    readDropl (enc1 g.val ++ encOpt (fun c => enc1 (classNo c)) c) = some (g, c))
  ∧ (∀ (g : GroupNo) (n : Nat), n < 256 → readGread (enc1 g.val ++ encOpt enc1 (some n)) = some (g, n))
  ∧ (∀ (g : GroupNo) (a : Count) (st : Setting), a < 2 ^ 40 → st.rate < 256 → st.level < 256 →
    readSched (enc1 g.val ++ encCount a ++ encSetting st) = some (g, a, st))
  ∧ (∀ (g : GroupNo) (a : Count), a < 2 ^ 40 → readUnsch (enc1 g.val ++ encCount a) = some (g, a))
  ∧ (∀ f : OrderFields, unitValid f.unit = true → (∀ n, f.repeats = some n → n < 256) →
    readOrder (encUnit f.unit ++ enc1 (orderKindNo f.kind)
      ++ encOpt (fun g : GroupNo => enc1 g.val) (match f.kind with
        | .assign g => some g
        | .query g => some g
        | .test => none)
      ++ [f.reference] ++ encOpt enc1 f.repeats) = some f)
  ∧ (∀ f : PinFields, unitValid f.unit = true → f.path.length ≤ 3 → f.path.all unitValid = true →
    readRpin (encUnit f.unit ++ encPath f.path ++ encPhase f.phase ++ encGrade f.grade) = some f)
  ∧ ∀ bs : List Byte,
    (∀ (g : GroupNo) (st : Setting), readSbase bs = some (g, st) ↔ st.rate < 256 ∧ st.level < 256
      ∧ ∃ hi < 16, Spells [(1, g.val), (1, st.rate), (1, 16 * hi + st.relays.toNat), (1, st.level)] bs)
    ∧ (∀ f : PushFields, readPushl bs = some f ↔ f.setting.rate < 256 ∧ f.setting.level < 256
      ∧ (∀ e, f.expiry = some e → e < 2 ^ 40)
      ∧ ∃ hi < 16, Spells ([(1, f.group.val), layClass f.cls, (1, f.setting.rate), (1, 16 * hi + f.setting.relays.toNat)
          , (1, f.setting.level)] ++ layOpt (fun e => [(5, e)]) f.expiry) bs)
    ∧ (∀ (g : GroupNo) (c : Option OverrideClass),
      readDropl bs = some (g, c) ↔ Spells ((1, g.val) :: layOpt (fun c => [layClass c]) c) bs)
    ∧ (∀ g : GroupNo, readGroupOnly bs = some g ↔ Spells [(1, g.val)] bs)
    ∧ (∀ (g : GroupNo) (n : Nat), readGread bs = some (g, n) ↔ n < 256
      ∧ ∃ given : Option Nat, n = given.getD 0 ∧ Spells ((1, g.val) :: layOpt (fun k => [(1, k)]) given) bs)
    ∧ (∀ (g : GroupNo) (a : Count) (st : Setting), readSched bs = some (g, a, st) ↔ a < 2 ^ 40 ∧ st.rate < 256
      ∧ st.level < 256
      ∧ ∃ hi < 16, Spells [(1, g.val), (5, a), (1, st.rate), (1, 16 * hi + st.relays.toNat), (1, st.level)] bs)
    ∧ (∀ (g : GroupNo) (a : Count), readUnsch bs = some (g, a) ↔ a < 2 ^ 40 ∧ Spells [(1, g.val), (5, a)] bs)
    ∧ (∀ b : Byte, readByte bs = some b ↔ bs = [b])
    ∧ (readNothing bs = some () ↔ bs = [])
    ∧ (∀ u : UnitNo, readUnit bs = some u ↔ u < 2 ^ 24 ∧ Spells [(3, u)] bs)
    ∧ (∀ f : OrderFields, readOrder bs = some f ↔ 1 ≤ f.unit ∧ f.unit ≤ 16777214 ∧ (∀ n, f.repeats = some n → n < 256)
      ∧ ∃ data : Option Nat, (match f.kind with
          | .assign g => data = some g.val
          | .query g => data = some g.val
          | .test => ∀ n, data = some n → n < 256)
        ∧ Spells ([(3, f.unit), (1, match f.kind with
            | .assign _ => 1
            | .query _ => 2
            | .test => 3)]
          ++ layOpt (fun n => [(1, n)]) data ++ [(1, f.reference.toNat)] ++ layOpt (fun n => [(1, n)]) f.repeats) bs)
    ∧ (∀ f : PinFields, readRpin bs = some f ↔ 1 ≤ f.unit ∧ f.unit ≤ 16777214 ∧ f.path.length ≤ 3
      ∧ (∀ u ∈ f.path, 1 ≤ u ∧ u ≤ 16777214)
      ∧ Spells ([(3, f.unit)] ++ layPath f.path ++ [layPhase f.phase, layGrade f.grade]) bs)
    ∧ (∀ m : NoticeSet, readNmask bs = some m ↔ Spells ((List.range 11).map fun i => layFlag (m.getLsbD i)) bs)
    ∧ (∀ m : CondSet, readCmask bs = some m ↔
      Spells [layFlag m.range, layFlag m.overflow, layFlag m.underflow, layFlag m.past] bs)
    ∧ (∀ b : Bool, readSnap bs = some b ↔ Spells [layFlag b] bs)
    ∧ ∀ ns : List (ParamId × Nat), readConf bs = some ns ↔ ns ≠ [] ∧ (ns.map Prod.fst).Nodup
      ∧ (∀ q v, (q, v) ∈ ns → v < (if q = .station then 2 ^ 24 else 2 ^ 16) ∧ (q = .reportPort → v = 1 ∨ v = 2))
      ∧ Spells (layConf ns) bs

/-- R175, R176: a request row on an IDLE port is the write of its message followed by its owner's action on it (log 3);
written to a port that is WORKING or ANSWERED it is discarded: the overrun marker is set and nothing else happens. For each of
the 28 requests. -/
def Obligations.RequestRowIsWriteThenAct : Prop :=
  ∀ (k : ReqKind) (p : Port) (fields : List Byte) (s : State),
    (PortIdle p s → fields.length ≤ 70 →
      ∃ u, exec (.writeTransaction p (messageOf k fields)) s = .next u
        ∧ (u.port p).state = .working ∧ (u.port p).inHand = some { kind := k, fields := fields }
        ∧ exec (rowOf k p fields) s = exec (rowOf k p fields) u)
    ∧ (¬ PortIdle p s → (s.port p).inHand ≠ some { kind := k, fields := fields } →
      exec (rowOf k p fields) s = .next (updPort p (fun c => { c with overrun := true }) s))

/-- R3, R13, R71, R166, R173, R174, R185: a request whose fields its encoding does not give, or that is longer than an envelope
holds, is answered MALFORMED with no effect, for each of the 28 requests. Such fields are, among others: a group above 63, for
each request that begins with one; a class that is not 1 to 3; the unit 0 or 16,777,215 of an ORDER or an RPIN, or in its path;
and a CONF that names none, one twice, or a report port that is neither A nor B. GOFF, GWAIT and REFSH take a group alone, SREAD
and CANCL one byte, RFREE and RREAD three, and the nine requests without fields none. -/
def Obligations.MalformedChangesNothing : Prop :=
  ∀ (p : Port) (s : State), PortIdle p s →
    (∀ (k : ReqKind) (fields : List Byte), (70 < fields.length ∨ fieldsRead k fields = false) →
      exec (rowOf k p fields) s = .next (answer p k .malformed none .empty id s))
    ∧ (∀ k ∈ [ReqKind.sbase, .pushl, .dropl, .goff, .gread, .gwait, .sched, .unsch, .refsh],
      ∀ (g : Byte) (rest : List Byte), 63 < g.toNat →
        exec (rowOf k p (g :: rest)) s = .next (answer p k .malformed none .empty id s))
    ∧ (∀ (g c : Byte) (rest : List Byte), c.toNat = 0 ∨ 3 < c.toNat →
        exec (.pushl p (g :: c :: rest)) s = .next (answer p .pushl .malformed none .empty id s)
        ∧ exec (.dropl p (g :: 1 :: c :: rest)) s = .next (answer p .dropl .malformed none .empty id s))
    ∧ (∀ (b : Byte) (rest : List Byte), b = 0 ∨ b = 255 →
        exec (.order p (b :: b :: b :: rest)) s = .next (answer p .order .malformed none .empty id s)
        ∧ exec (.rpin p (b :: b :: b :: rest)) s = .next (answer p .rpin .malformed none .empty id s)
        ∧ ∀ (u2 u1 u0 n : Byte) (relays : List Byte), relays.length % 3 = 0 → relays.length < 3 * n.toNat →
          exec (.rpin p (u2 :: u1 :: u0 :: n :: relays ++ b :: b :: b :: rest)) s
            = .next (answer p .rpin .malformed none .empty id s))
    ∧ (∀ fields : List Byte,
        (∀ k ∈ [ReqKind.goff, .gwait, .refsh], fieldsRead k fields = true ↔ ∃ g : GroupNo, Spells [(1, g.val)] fields)
        ∧ (∀ k ∈ [ReqKind.sread, .cancl], fieldsRead k fields = true ↔ fields.length = 1)
        ∧ (∀ k ∈ [ReqKind.rfree, .rread], fieldsRead k fields = true ↔ fields.length = 3)
        ∧ ∀ k ∈ [ReqKind.time, .fence, .rtake, .rflsh, .nfetch, .cclr, .cread, .lreset, .preset],
            fieldsRead k fields = true ↔ fields = [])
    ∧ ∀ (ns : List (ParamId × Nat)) (fields : List Byte),
        (∀ q v, (q, v) ∈ ns → v < (if q = .station then 2 ^ 24 else 2 ^ 16)) → Spells (layConf ns) fields →
        (ns = [] ∨ ¬ (ns.map Prod.fst).Nodup ∨ ∃ v, (ParamId.reportPort, v) ∈ ns ∧ v ≠ 1 ∧ v ≠ 2) →
        exec (.conf p fields) s = .next (answer p .conf .malformed none .empty id s)

/-! ## Groups (R2 to R24) -/

/-- R8, R9, R60 to R63: after its check, and after the end of the event that the check belongs to, a group that is owed an
announcement has its due flag set or an announcement of its effective setting in the queue. The check asks for nothing when
the stated setting is the effective setting and no immediate NEW entry carries another one, when an entry matches, when the
due flag is set, or when the group is INACTIVE. -/
def Obligations.CheckMeetsTheDebt : Prop :=
  ∀ (g : GroupNo) (s : State),
    (Owed g (check g s).state → Met g (check g s).state)
      ∧ (Owed g (closeAsked (check g s)) → Met g (closeAsked (check g s)))
      ∧ ((s.group g).next = none →
        ((s.group g).due = true
          ∨ effectiveOf (s.group g).holding = none
          ∨ (∃ e st, effectiveOf (s.group g).holding = some e ∧ (s.group g).stated = some st ∧ st.setting = e
              ∧ ∀ a, Entry.ann a ∈ s.disp.queue → a.group = g → a.flavour = .new → a.activation = none → a.content = e)
          ∨ (∃ e a, effectiveOf (s.group g).holding = some e ∧ (∀ st, (s.group g).stated = some st → st.setting ≠ e)
              ∧ Entry.ann a ∈ s.disp.queue ∧ a.group = g ∧ a.flavour = .new ∧ a.activation = none ∧ a.content = e)) →
          (check g s).state = s ∧ (check g s).made = false)

/-- R28, R33, R35, R59 to R63: what becomes of a NEW request of a group. An immediate one is absorbed by a timed entry of its
content whose activation is reached, be that entry in flight or not started: nothing is merged, nothing cut short, no place
freed. With no entry of the group in flight any other is merged into the group's first entry of the last segment, which keeps
its place and its entry count, and where that was timed the QUEUED mark of its schedule entry becomes NONE; else it is
appended; or, with all 16 places held, refused, with the due flag set when it is immediate. An entry of an earlier segment
stays as it is. -/
def Obligations.RequestIsAbsorbedMergedAppendedOrRefused : Prop :=
  ∀ (r : AnnReq) (s : State) (absorbed : Prop), (absorbed ↔ r.activation = none ∧ ∃ a v, Entry.ann a ∈ s.disp.queue
      ∧ a.group = r.group ∧ a.flavour = .new ∧ a.content = r.content ∧ a.activation = some v ∧ v ≤ s.count) →
    (absorbed → (request r s).state = s ∧ (request r s).made = false ∧ (request r s).freed = 0)
    ∧ (¬ absorbed → (∀ e ∈ s.disp.queue, isInFlight r.group e = false) → ∀ front seg, s.disp.queue = front ++ seg →
      (front = [] ∨ ∃ p, front.getLast? = some (.fence p)) →
      (∀ e ∈ seg, isFence e = false) →
      (∀ ahead a behind, seg = ahead ++ .ann a :: behind → a.group = r.group → (∀ e ∈ ahead, isAnnOf r.group e = false) →
        (request r s).state = (setQueue (front ++ ahead ++ .ann
          { a with content := r.content, activation := r.activation, origin := r.origin, repeats := r.repeats
                   flavour := .new, stamp := none } :: behind) s).setSchedule
            (s.schedule.map fun e =>
              if e.group = r.group ∧ a.activation = some e.activation ∧ e.mark = .queued then { e with mark := .none } else e)
        ∧ (request r s).made = false ∧ (request r s).freed = 0)
      ∧ ((∀ e ∈ seg, isAnnOf r.group e = false) → s.disp.queue.length < 16 →
        (request r s).state = setQueue (s.disp.queue ++ [.ann
          { group := r.group, content := r.content, activation := r.activation, flavour := .new, stamp := none
            started := false, repeats := r.repeats, done := 0, lastEnd := none, entryCount := s.count, origin := r.origin
            late := false }]) s
        ∧ (request r s).made = true ∧ (request r s).freed = 0)
      ∧ ((∀ e ∈ seg, isAnnOf r.group e = false) → 16 ≤ s.disp.queue.length →
        (request r s).state =
          (if r.activation = none then updGroup r.group (fun x => { x with due := true }) s else s)
        ∧ (request r s).made = false ∧ (request r s).freed = 0))

/-- R11, R28, R59, R61 to R63, R69, R95, R96, R118: a NEW request that no entry absorbs cuts its group's one announcement entry in
flight short, be it NEW or CATCH-UP, immediate or timed: the entry leaves the queue, the origin port is told SUPERSEDED,
stated setting and next stated are absent, the mark of its schedule entry leaves QUEUED and that of next stated leaves
COMPLETED, and a frame of it on the line is abandoned with no backoff. The request is merged into the group's entry of the
last segment, whose mark leaves QUEUED as well, and the place of the entry cut short is then free; or it is appended in that
entry's stead. -/
def Obligations.RequestCutsShortTheEntryInFlight : Prop :=
  ∀ (r : AnnReq) (s : State) (ahead behind : List Entry) (a : Ann), s.disp.queue = ahead ++ .ann a :: behind →
    a.group = r.group → a.started = true → s.disp.queue.length ≤ 16 →
    ¬ (r.activation = none ∧ ∃ b v, Entry.ann b ∈ s.disp.queue ∧ b.group = r.group ∧ b.flavour = .new
      ∧ b.content = r.content ∧ b.activation = some v ∧ v ≤ s.count) →
    (∀ e ∈ ahead ++ behind, isInFlight r.group e = false) →
    (∀ front seg, ahead ++ behind = front ++ seg → (front = [] ∨ ∃ p, front.getLast? = some (.fence p)) →
      (∀ e ∈ seg, isFence e = false) →
      ((∀ e ∈ seg, isAnnOf r.group e = false) →
        (request r s).made = true ∧ (request r s).freed = 0
        ∧ (request r s).state.disp.queue = ahead ++ behind ++ [.ann
            { group := r.group, content := r.content, activation := r.activation, flavour := .new, stamp := none
              started := false, repeats := r.repeats, done := 0, lastEnd := none, entryCount := s.count, origin := r.origin
              late := false }])
      ∧ ∀ before b after, seg = before ++ .ann b :: after → b.group = r.group → (∀ e ∈ before, isAnnOf r.group e = false) →
        (request r s).made = false ∧ (request r s).freed = 1
        ∧ (request r s).state.disp.queue = front ++ before ++ .ann
            { b with content := r.content, activation := r.activation, origin := r.origin, repeats := r.repeats
                     flavour := .new, stamp := none } :: after
        ∧ ∀ e ∈ (request r s).state.schedule, e.group = r.group → b.activation = some e.activation → e.mark ≠ .queued)
    ∧ ((request r s).state.group r.group).stated = none ∧ ((request r s).state.group r.group).next = none
    ∧ (request r s).state.schedule.map SchedEntry.unmarked = s.schedule.map SchedEntry.unmarked
    ∧ (∀ e ∈ (request r s).state.schedule, e.group = r.group →
        (a.activation = some e.activation → e.mark ≠ .queued)
        ∧ (∀ n, (s.group r.group).next = some n → n.activation = e.activation → e.mark ≠ .completed))
    ∧ (∀ p, a.origin = some p → Told p (.announcementEnded
        { reason := .superseded, group := a.group, flavour := a.flavour, content := a.content, activation := a.activation
          stamp := a.stamp, done := a.done, lastEnd := a.lastEnd }) s (request r s).state)
    ∧ (∀ t, s.disp.sending = some t → t.group = r.group → Released s (request r s).state)

/-- R13, R14, R15: SBASE sets the base layer of its group, clamped when RANGE is masked, with the port as its origin; a group
that was INACTIVE has no stated setting; an unmasked RANGE refuses the request. -/
def Obligations.SbaseSetsTheBaseLayer : Prop :=
  ∀ (p : Port) (fields : List Byte) (g : GroupNo) (st : Setting) (s : State),
    PortIdle p s → readSbase fields = some (g, st) →
    ((1 ≤ st.rate ∧ st.rate ≤ 8 ∧ st.level ≤ 9) → ∃ t, exec (.sbase p fields) s = .next t
        ∧ Answered p .sbase .done none .empty t
        ∧ Keeps (withHolding g (.active { setting := st, origin := .port p } (overridesOf (s.group g).holding)) s) t
        ∧ (isActive (s.group g).holding = false → (t.group g).stated = none ∧ (t.group g).next = none)
        ∧ (Owed g t → Met g t))
    ∧ (¬ (1 ≤ st.rate ∧ st.rate ≤ 8 ∧ st.level ≤ 9) → (s.port p).mask.range = true → ∃ t, exec (.sbase p fields) s = .next t
        ∧ Answered p .sbase .adjusted none .empty t
        ∧ Keeps (withHolding g (.active
            { setting := { rate := max 1 (min 8 st.rate), relays := st.relays, level := min 9 st.level }, origin := .port p }
            (overridesOf (s.group g).holding)) (updPort p (fun c => c.record1 .range .sbase g) s)) t
        ∧ (isActive (s.group g).holding = false → (t.group g).stated = none ∧ (t.group g).next = none)
        ∧ (Owed g t → Met g t))
    ∧ (¬ (1 ≤ st.rate ∧ st.rate ≤ 8 ∧ st.level ≤ 9) → (s.port p).mask.range = false →
        exec (.sbase p fields) s = .next (answer p .sbase .condition (some .range) .empty
          (fun c => c.record1 .range .sbase g) s))

/-- R4, R13, R14, R16: a PUSHL that no condition stops, on an ACTIVE group with fewer than 7 overrides, enters its layer
directly below the layers of a higher class and directly above every layer of its class or lower; a setting out of range is
clamped where the port masks RANGE, and the outcome is then ADJUSTED. -/
def Obligations.PushlEntersTheLayer : Prop :=
  ∀ (p : Port) (fields : List Byte) (f : PushFields) (b : BaseLayer) (above below : List Override) (st : Setting) (adj : Bool)
    (s u : State),
    PortIdle p s → readPushl fields = some f → (s.group f.group).holding = .active b (above ++ below) →
    (above ++ below).length < 7 → (∀ o ∈ above, classNo f.cls < classNo o.cls) → (∀ o ∈ below, classNo o.cls ≤ classNo f.cls) →
    Ranged p .pushl f.group f.setting st adj s u → (∀ e, f.expiry = some e → s.count < e) →
    ∃ t, exec (.pushl p fields) s = .next t ∧ Answered p .pushl (if adj then .adjusted else .done) none .empty t
      ∧ Keeps (withHolding f.group (.active b (above
          ++ { cls := f.cls, setting := st, origin := p, expiry := f.expiry, pushed := s.count } :: below)) u) t
      ∧ (Owed f.group t → Met f.group t)

/-- R13, R14, R16, R17, R177: what stops a PUSHL before its layer is entered, with the conditions it records: INACTIVE, RANGE,
PAST, and a masked RANGE followed by PAST, each treated by the port's own mask; and OVERFLOW on a group with 7 overrides, also
behind a masked RANGE: unmasked the request is refused; masked, a layer that would rank lowest is discarded, and any other
evicts the lowest-ranked override, whose origin port is told. -/
def Obligations.PushlMeetsItsConditions : Prop :=
  ∀ (p : Port) (fields : List Byte) (f : PushFields) (s : State), PortIdle p s → readPushl fields = some f →
    (isActive (s.group f.group).holding = false →
      exec (.pushl p fields) s = .next (answer p .pushl .inactive none .empty id s))
    ∧ (isActive (s.group f.group).holding = true → f.setting.inRange = false → (s.port p).mask.range = false →
      exec (.pushl p fields) s = .next (answer p .pushl .condition (some .range) .empty
        (fun c => c.record1 .range .pushl f.group) s))
    ∧ ∀ (st : Setting) (adj : Bool) (u : State), Ranged p .pushl f.group f.setting st adj s u →
      (∀ e, isActive (s.group f.group).holding = true → f.expiry = some e → e ≤ s.count →
        exec (.pushl p fields) s = .next (answer p .pushl
          (if (s.port p).mask.past then .adjusted else .condition) (if (s.port p).mask.past then none else some .past) .empty
          (fun c => c.record1 .past .pushl f.group) u))
      ∧ ∀ (b : BaseLayer) (os : List Override) (low : Override),
        (s.group f.group).holding = .active b (os ++ [low]) → os.length = 6 → (∀ e, f.expiry = some e → s.count < e) →
        ((s.port p).mask.overflow = false →
          exec (.pushl p fields) s = .next (answer p .pushl .condition (some .overflow) .empty
            (fun c => c.record1 .overflow .pushl f.group) u))
        ∧ ((s.port p).mask.overflow = true → (∀ o ∈ os ++ [low], classNo f.cls < classNo o.cls) →
          exec (.pushl p fields) s = .next (answer p .pushl .adjusted none .empty
            (fun c => c.record1 .overflow .pushl f.group) u))
        ∧ ((s.port p).mask.overflow = true → (∃ o ∈ os ++ [low], classNo o.cls ≤ classNo f.cls) →
          ∃ t, exec (.pushl p fields) s = .next t ∧ Answered p .pushl .adjusted none .empty t
            ∧ Keeps (withHolding f.group (.active b (insertOverride
                { cls := f.cls, setting := st, origin := p, expiry := f.expiry, pushed := s.count } os))
                (updPort p (fun c => c.record1 .overflow .pushl f.group) u)) t
            ∧ Told low.origin (.layerEnded .evicted f.group low.cls low.setting) s t
            ∧ (Owed f.group t → Met f.group t))

/-- R18: DROPL removes the highest-ranked override of its own port, of the class given if one is; with none, UNDERFLOW changes
nothing. -/
def Obligations.DroplRemovesOwnHighestLayer : Prop :=
  ∀ (p : Port) (fields : List Byte) (g : GroupNo) (c : Option OverrideClass) (s : State),
    PortIdle p s → readDropl fields = some (g, c) →
    (isActive (s.group g).holding = false →
      exec (.dropl p fields) s = .next (answer p .dropl .inactive none .empty id s))
    ∧ (∀ b os, (s.group g).holding = .active b os →
      (∀ o ∈ os, ¬ (o.origin = p ∧ ∀ k, c = some k → o.cls = k)) →
      exec (.dropl p fields) s = .next (answer p .dropl
        (if (s.port p).mask.underflow then .adjusted else .condition)
        (if (s.port p).mask.underflow then none else some .underflow) .empty
        (fun x => x.record1 .underflow .dropl g) s))
    ∧ (∀ b above o below, (s.group g).holding = .active b (above ++ o :: below) →
      (∀ x ∈ above, ¬ (x.origin = p ∧ ∀ k, c = some k → x.cls = k)) → o.origin = p → (∀ k, c = some k → o.cls = k) →
      ∃ t, exec (.dropl p fields) s = .next t ∧ Answered p .dropl .done none .empty t
        ∧ Keeps (withHolding g (.active b (above ++ below)) s) t ∧ (Owed g t → Met g t))

/-- R12, R19, R28, R33, R69, R70, R95, R96, R118: GOFF makes its group INACTIVE with no stated setting, no next stated, no due
flag and no announcement entry, and answers a GWAIT of the other port for the group UNSETTLED; the stamp counter is kept. An
entry in flight is cut short: its origin port is told SUPERSEDED, and its frame on the line is abandoned with no backoff. The
QUEUED mark of the schedule entry of a pre-announcement, in flight or not started, becomes NONE; the schedule entries of every
other group that is not due stay as they are. A next stated that it discards before its count takes the COMPLETED mark with it;
one whose count has come is applied first, and the mark stands (R12; log 34). -/
def Obligations.GoffDeactivatesTheGroup : Prop :=
  ∀ (p : Port) (fields : List Byte) (g : GroupNo) (s : State), PortIdle p s → readGroupOnly fields = some g →
    (isActive (s.group g).holding = false →
      exec (.goff p fields) s = .next (answer p .goff .inactive none .empty id s))
    ∧ (isActive (s.group g).holding = true →
      ∃ t, exec (.goff p fields) s = .next t ∧ Answered p .goff .done none .empty t
        ∧ Keeps (withHolding g .inactive s) t
        ∧ (t.group g).stated = none ∧ (t.group g).next = none ∧ (t.group g).due = false
        ∧ (∀ e ∈ t.disp.queue, isAnnOf g e = false)
        ∧ (∀ ahead a behind, s.disp.queue = ahead ++ .ann a :: behind → a.group = g → a.started = true →
            (∀ e ∈ ahead ++ behind, isInFlight g e = false) →
            (∀ q, a.origin = some q → Told q (.announcementEnded
              { reason := .superseded, group := g, flavour := a.flavour, content := a.content, activation := a.activation
                stamp := a.stamp, done := a.done, lastEnd := a.lastEnd }) s t)
            ∧ ∀ tr, s.disp.sending = some tr → tr.group = g → Released s t)
        ∧ (∀ a v, Entry.ann a ∈ s.disp.queue → a.group = g → a.activation = some v →
            ∀ e ∈ s.schedule, e.group = g → e.activation = v → e.mark = .queued → { e with mark := .none } ∈ t.schedule)
        ∧ (∀ e ∈ s.schedule, e.group ≠ g → (s.group e.group).due = false → e ∈ t.schedule)
        ∧ (∀ n, (s.group g).next = some n → s.count < n.activation →
            ∀ e ∈ t.schedule, e.group = g → e.activation = n.activation → e.mark ≠ .completed)
        ∧ (∀ n, (s.group g).next = some n → n.activation ≤ s.count →
            ∀ e ∈ s.schedule, e.group = g → e.mark = .completed → e ∈ t.schedule)
        ∧ ∀ w, s.waits.get (otherPort p) = some w → w.group = g →
            t.waits.get (otherPort p) = none
            ∧ ∃ r, Answered (otherPort p) .gwait .done none (.group r) t ∧ r.settled = false ∧ r.active = false)

/-- R20: what GREAD and GWAIT show of a group: its state, the number of its layers and up to 2 of them from the top down, its
stated setting, next stated, stamp counter and due flag, its announcement state, and the settled mark. GREAD changes nothing
else. -/
def Obligations.GreadShowsTheRecord : Prop :=
  ∀ (p : Port) (fields : List Byte) (g : GroupNo) (start : Nat) (s : State),
    PortIdle p s → readGread fields = some (g, start) →
    ∃ r, exec (.gread p fields) s = .next (answer p .gread .done none (.group r) id s)
      ∧ r.active = isActive (s.group g).holding
      ∧ (∀ b os, (s.group g).holding = .active b os → r.layerCount = os.length + 1
          ∧ r.layers = ((os.map LayerReading.override ++ [LayerReading.base b]).drop start).take 2)
      ∧ ((s.group g).holding = .inactive → r.layerCount = 0 ∧ r.layers = [])
      ∧ r.stated = (s.group g).stated ∧ r.next = (s.group g).next ∧ r.stampCounter = (s.group g).stampCounter
      ∧ r.due = (s.group g).due
      ∧ (r.annState = .none ↔ ∀ a, Entry.ann a ∈ s.disp.queue → a.group ≠ g)
      ∧ (r.annState = .inFlight ↔ ∃ a, Entry.ann a ∈ s.disp.queue ∧ a.group = g ∧ a.started = true)
      ∧ (r.settled = true ↔ r.annState = .none ∧ r.due = false)

/-- R21, R22: a GWAIT is answered at once for an INACTIVE or a settled group; else the wait is kept open and the port stays
WORKING. At the end of every event that concerns the dispatch queue an open wait whose group is settled is answered SETTLED,
with the record as it stands, and every other wait stays open. An open wait whose limit count is reached is answered
UNSETTLED; one whose limit lies ahead is left. A next stated whose count has come is not applied by either (log 35). A limit
count reached is one at or before the mains count (log 2). -/
def Obligations.GwaitAnswersOrWaits : Prop :=
  (∀ (p : Port) (fields : List Byte) (g : GroupNo) (s : State), PortIdle p s → readGroupOnly fields = some g →
    (isActive (s.group g).holding = false →
      exec (.gwait p fields) s = .next (answer p .gwait .inactive none (.group (readGroup g 0 s)) id s))
    ∧ (isActive (s.group g).holding = true → (readGroup g 0 s).settled = true →
      exec (.gwait p fields) s = .next (answer p .gwait .done none (.group (readGroup g 0 s)) id s))
    ∧ (isActive (s.group g).holding = true → (readGroup g 0 s).settled = false →
      exec (.gwait p fields) s = .next
        (updPort p (fun c => { c with state := .working, inHand := none })
          (s.setWaits (s.waits.set p (some { group := g, limit := s.count + 65535 }))))))
  ∧ (∀ (n : Nat) (s : State), WaitsSettled s (closeEvent n s) ∧ WaitsSettled s (closeDeparture n s))
  ∧ ∀ (p : Port) (s : State),
    (∀ w, s.waits.get p = some w → w.limit ≤ s.count →
      exec (.gwaitLimit p) s = .next (answer p .gwait .done none (.group { readGroup w.group 0 s with settled := false }) id
        (s.setWaits (s.waits.set p none))))
    ∧ ((∀ w, s.waits.get p = some w → s.count < w.limit) → exec (.gwaitLimit p) s = .next s)

/-- R8, R12, R23: the timers of a group. At their expiry count its overrides leave its layer list, each with its notice, and
the others keep their order; the notices of several run from the top layer down (log 23). At its activation count next stated
is made absent, and becomes the stated setting where that is the effective setting and the group has no announcement entry.
What is owed after either has an entry or the due flag, or is left to events still to act (log 32, log 37). Before its count neither
timer does anything. A count reached is one at or before the mains count (log 2). -/
def Obligations.GroupTimersAct : Prop :=
  ∀ (g : GroupNo) (s : State),
    (∀ b os, (s.group g).holding = .active b os → (∃ o ∈ os, ∃ e, o.expiry = some e ∧ e ≤ s.count) →
      ∃ t, exec (.layerExpiry g) s = .next t
        ∧ Keeps (withHolding g (.active b (os.filter fun o => !expiryPast o.expiry s.count)) s) t
        ∧ (∀ p gone, gone = os.filter (fun o => expiryPast o.expiry s.count && decide (o.origin = p)) →
            (s.port p).shedding = false → (s.port p).notices.length + gone.length ≤ 15 →
            ∃ rest, (t.port p).notices = (s.port p).notices ++ gone.map (fun o =>
              { count := s.count, body := .layerEnded .expired g o.cls o.setting }) ++ rest)
        ∧ (Owed g t → Met g t ∨ LeftToEvents g t ∨ LeftForOrigin g t))
    ∧ ((∀ o ∈ overridesOf (s.group g).holding, ∀ e, o.expiry = some e → s.count < e) →
      exec (.layerExpiry g) s = .next s)
    ∧ (∀ n, (s.group g).next = some n → n.activation ≤ s.count →
      ∃ t, exec (.applicationOfNextStated g) s = .next t ∧ Keeps s t ∧ (t.group g).next = none
        ∧ (effectiveOf (s.group g).holding = some n.setting → (∀ e ∈ s.disp.queue, isAnnOf g e = false) →
            (t.group g).stated = some { setting := n.setting, stamp := n.stamp })
        ∧ (Owed g t → Met g t ∨ LeftToEvents g t ∨ LeftForOrigin g t))
    ∧ ((∀ n, (s.group g).next = some n → s.count < n.activation) → exec (.applicationOfNextStated g) s = .next s)

/-! ## The schedule (R27 to R39) -/

/-- R13, R14, R29 to R32, R36, R63: a SCHED for a count ahead, with no entry held for its group and count and fewer than 48
entries, enters its entry behind every entry of its count or before. Where the entry is within its reach, R32 admits it, no
line reset holds pre-announcements back and a place is free, its pre-announcement is entered at once and its mark is QUEUED.
For an entry held, its count come or ahead: with its setting the
origin changes, and a mark other than NONE, its link and the pre-announcement stay; with another the new entry takes its
place. A setting out of range is clamped where the port masks RANGE, and the outcome is then ADJUSTED. Where the count has
come and the entry is still to act, a SCHED taken before the activation replaces it and the replacement acts; one taken after
it raises PAST, and masked it sets the base at once. The new entry takes the index of the one it replaces (log 27); a SCHED
between the crossing row and the activation is the event taken first (log 33); a count reached is one at or before the mains
count (log 2). -/
def Obligations.SchedEntersTheEntry : Prop :=
  (∀ (p : Port) (fields : List Byte) (g : GroupNo) (a : Count) (raw st : Setting) (adj : Bool) (before after : List SchedEntry)
    (s u : State),
    PortIdle p s → readSched fields = some (g, a, raw) → Ranged p .sched g raw st adj s u → s.count < a →
    s.schedule = before ++ after → (∀ e ∈ before, e.activation ≤ a) → (∀ e ∈ after, a < e.activation) →
    (∀ e ∈ before, ¬ (e.group = g ∧ e.activation = a)) → before.length + after.length < 48 →
    ∃ t, exec (.sched p fields) s = .next t ∧ Answered p .sched (if adj then .adjusted else .done) none .empty t
      ∧ Keeps (u.setSchedule
          (before ++ { group := g, activation := a, setting := st, origin := p, mark := .none } :: after)) t
      ∧ ∀ b, s.heldBack = false → a ≤ s.count + min s.conf.leadWindow 65535 + announceSlots s.conf.broadcastGrade →
          (∀ x ∈ before ++ after, x.group = g → a < x.activation) → (s.group g).holding = .active b [] →
          (∀ q ∈ s.disp.queue, isAnnOf g q = false) → (s.group g).due = false → (s.group g).next = none →
          s.disp.queue.length < 16 →
          { group := g, activation := a, setting := st, origin := p, mark := .queued } ∈ t.schedule
          ∧ Entry.ann
              { group := g, content := st, activation := some a, flavour := .new, stamp := none, started := false
                repeats := s.conf.defaultRepeat, done := 0, lastEnd := none, entryCount := s.count, origin := some p
                late := false } ∈ t.disp.queue)
  ∧ ∀ (p : Port) (fields : List Byte) (e : SchedEntry) (raw st : Setting) (adj : Bool) (before after : List SchedEntry)
    (s u : State),
    PortIdle p s → readSched fields = some (e.group, e.activation, raw) → Ranged p .sched e.group raw st adj s u →
    s.schedule = before ++ e :: after →
    (∀ x ∈ before ++ after, ¬ (x.group = e.group ∧ x.activation = e.activation)) →
    (∃ t, exec (.sched p fields) s = .next t ∧ Answered p .sched (if adj then .adjusted else .done) none .empty t
      ∧ (st = e.setting → Keeps (u.setSchedule (before ++ { e with origin := p } :: after)) t
          ∧ (∀ x, Entry.ann x ∈ s.disp.queue → (s.group x.group).due = false → Entry.ann x ∈ t.disp.queue)
          ∧ (e.mark ≠ .none → MovesInv s →
              t.schedule = before ++ { e with origin := p } :: after ∧ t.disp = s.disp ∧ t.groups = s.groups ∧ t.exch = s.exch))
      ∧ (st ≠ e.setting → Keeps ((u.setSchedule (before ++
          { group := e.group, activation := e.activation, setting := st, origin := p, mark := .none } :: after)).setChoices
            t.choices) t))
    ∧ (e.activation ≤ s.count → (∀ x ∈ before, x.group = e.group → s.count < x.activation) → s.waits.get p = none →
      (∃ t, Runs [.sched p fields, .scheduleActivation e.group] s t
        ∧ Answered p .sched (if adj then .adjusted else .done) none .empty t
        ∧ (t.group e.group).holding = .active { setting := st, origin := .schedule } (overridesOf (s.group e.group).holding)
        ∧ ∀ x ∈ t.schedule, ¬ (x.group = e.group ∧ x.activation = e.activation))
      ∧ ∃ t, Runs [.scheduleActivation e.group, .sched p fields] s t
        ∧ Answered p .sched (if (s.port p).mask.past then .adjusted else .condition)
            (if (s.port p).mask.past then none else some .past) .empty t
        ∧ (t.group e.group).holding = .active
            { setting := if (s.port p).mask.past then st else e.setting, origin := .schedule }
            (overridesOf (s.group e.group).holding)
        ∧ ∀ x ∈ t.schedule, ¬ (x.group = e.group ∧ x.activation = e.activation))

/-- R13, R14, R29, R36: what keeps a SCHED out of the list: RANGE or PAST unmasked, and 48 entries held; and a masked PAST,
which makes the setting the base of the group at once with origin SCHEDULE. Each of the last three also behind a masked RANGE,
with the setting clamped. PAST is for a count at or before the mains count with no entry held for it: one still held is to act
yet, and is replaced (log 33). -/
def Obligations.SchedRefusedOrAtOnce : Prop :=
  ∀ (p : Port) (fields : List Byte) (g : GroupNo) (a : Count) (raw : Setting) (s : State),
    PortIdle p s → readSched fields = some (g, a, raw) →
    (raw.inRange = false → (s.port p).mask.range = false →
      exec (.sched p fields) s = .next (answer p .sched .condition (some .range) .empty
        (fun c => c.record1 .range .sched g) s))
    ∧ ∀ (st : Setting) (adj : Bool) (u : State), Ranged p .sched g raw st adj s u →
      (a ≤ s.count → (∀ e ∈ s.schedule, ¬ (e.group = g ∧ e.activation = a)) → (s.port p).mask.past = false →
        exec (.sched p fields) s = .next (answer p .sched .condition (some .past) .empty
          (fun c => c.record1 .past .sched g) u))
      ∧ (s.count < a → s.schedule.length = 48 → (∀ e ∈ s.schedule, ¬ (e.group = g ∧ e.activation = a)) →
        exec (.sched p fields) s = .next (answer p .sched .full none .empty id u))
      ∧ (a ≤ s.count → (∀ e ∈ s.schedule, ¬ (e.group = g ∧ e.activation = a)) → (s.port p).mask.past = true →
        ∃ t, exec (.sched p fields) s = .next t ∧ Answered p .sched .adjusted none .empty t
          ∧ Keeps (withHolding g (.active { setting := st, origin := .schedule } (overridesOf (s.group g).holding))
              (updPort p (fun c => c.record1 .past .sched g) u)) t
          ∧ (isActive (s.group g).holding = false → (t.group g).stated = none ∧ (t.group g).next = none)
          ∧ (Owed g t → Met g t))

/-- R8, R11, R33, R37, R38, R69, R70, R95, R96, R118: UNSCH takes the entry of its group and count out of the list, whichever port wrote it.
With the mark NONE nothing else changes where R8 is kept without the entry (log 32). A QUEUED pre-announcement not started
leaves the dispatch queue with no notice, every announcement of another group that is not due stays in it, and the group's
record stands where nothing is owed, or where the count lies ahead and another entry of the group is held; what is owed with
no other entry, or with the count come and a check left to the entry (log 32), is requested, unless it is left to other events still to act
(log 32, log 37). A COMPLETED pre-announcement, or
one in flight, leaves the group with no stated setting and no next stated. One in flight leaves the queue, its origin port is
told SUPERSEDED, and its frame on the line is abandoned with no backoff. -/
def Obligations.UnschWithdrawsTheEntry : Prop :=
  ∀ (p : Port) (fields : List Byte) (g : GroupNo) (a : Count) (s : State),
    PortIdle p s → readUnsch fields = some (g, a) →
    ((∀ e ∈ s.schedule, ¬ (e.group = g ∧ e.activation = a)) →
      exec (.unsch p fields) s = .next (answer p .unsch .notFound none .empty id s))
    ∧ ∀ before e after, s.schedule = before ++ e :: after → e.group = g → e.activation = a →
      (∀ x ∈ before ++ after, ¬ (x.group = g ∧ x.activation = a)) →
      (e.mark = .none →
        (Owed g s → Met g s ∨ s.count < a ∧ ∃ x, Entry.ann x ∈ s.disp.queue ∧ x.group = g) →
        exec (.unsch p fields) s = .next (answer p .unsch .done none .empty id (s.setSchedule (before ++ after))))
      ∧ ∃ t, exec (.unsch p fields) s = .next t ∧ Answered p .unsch .done none .empty t
        ∧ Keeps ((s.setSchedule (before ++ after)).setChoices t.choices) t
        ∧ ((e.mark = .completed ∨ (e.mark = .queued ∧ heldUnstarted e s = false ∧ heldInFlight e s = true)) →
            (t.group g).stated = none ∧ (t.group g).next = none ∧ (Owed g t → Met g t))
        ∧ (∀ ahead x behind, e.mark = .queued → s.disp.queue = ahead ++ .ann x :: behind → x.group = g → x.started = true →
            x.activation = some a → (∀ q ∈ ahead ++ behind, isInFlight g q = false) →
            (∀ y, Entry.ann y ∈ ahead ++ behind → y.group = g → y.activation ≠ some a) →
            (∀ q ∈ t.disp.queue, isInFlight g q = false)
            ∧ (∀ q, x.origin = some q → Told q (.announcementEnded
                { reason := .superseded, group := g, flavour := x.flavour, content := x.content, activation := some a
                  stamp := x.stamp, done := x.done, lastEnd := x.lastEnd }) s t)
            ∧ ∀ tr, s.disp.sending = some tr → tr.group = g → Released s t)
        ∧ ∀ goes : Entry → Bool,
          (∀ q, goes q = true ↔ ∃ x, q = Entry.ann x ∧ x.group = g ∧ x.started = false ∧ x.activation = some a) →
          e.mark = .queued → (∃ q ∈ s.disp.queue, goes q = true) → (s.group g).due = false →
          (∀ q ∈ t.disp.queue, goes q = false)
          ∧ (∀ x, Entry.ann x ∈ s.disp.queue → x.group ≠ g → (s.group x.group).due = false → Entry.ann x ∈ t.disp.queue)
          ∧ ((¬ Owed g s ∨ s.count < a ∧ ∃ q ∈ s.disp.queue, isAnnOf g q = true ∧ goes q = false) → t.group g = s.group g)
          ∧ ((a ≤ s.count ∨ ∀ q ∈ s.disp.queue, isAnnOf g q = true → goes q = true) → Owed g t → Met g t ∨ LeftToEvents g t ∨ LeftForOrigin g t)
          ∧ (¬ Owed g s → (∀ h, (s.group h).due = false) → (∀ q ∈ s.disp.queue, isWork q = false) →
              (∀ x ∈ before ++ after, x.group ≠ g) →
              t.disp.queue = s.disp.queue.filter (fun q => !goes q)
              ∧ ∀ q, s.disp.spaceMarks.get q = false → p ≠ q → s.waits.get q = none → t.port q = s.port q)

/-- R12, R23, R34 to R36, R60: at its activation count an entry leaves the list and sets its group's base layer with origin
SCHEDULE; its origin port is told; with no entry of the group reached nothing happens. What is then owed has an entry or the
due flag, or is left to an expiry still to act (log 32, log 37). With the base on top, a timed announcement of the entry's setting that is
reached, in flight or not started, absorbs what the activation asks for: the queue and the transmission stay as they are.
Where every override has come to its expiry and the group has no
announcement entry, the requests are the same whichever order the activation, the expiry and the application are taken in:
none where the stated setting, or a next stated whose count has come, is the setting of the one entry reached (log 32); and
else, with a place free, one of that setting with origin none, the base's, also where the layers left that setting before
(log 37), or, with all 16 places held, the due flag. A count reached is one at or before the mains count (log 2). -/
def Obligations.ScheduleActivationSetsTheBase : Prop :=
  ∀ (g : GroupNo) (s : State),
    (∀ before e after, s.schedule = before ++ e :: after → e.group = g → e.activation ≤ s.count →
      (∀ x ∈ before, x.group = g → s.count < x.activation) →
      (∃ t, exec (.scheduleActivation g) s = .next t
        ∧ Keeps (withHolding g (.active { setting := e.setting, origin := .schedule } (overridesOf (s.group g).holding))
            (s.setSchedule (before ++ after))) t
        ∧ Told e.origin (.scheduleApplied g e.activation e.setting e.mark) s t
        ∧ (isActive (s.group g).holding = false → (t.group g).stated = none ∧ (t.group g).next = none)
        ∧ (Owed g t → Met g t ∨ LeftToEvents g t ∨ LeftForOrigin g t)
        ∧ ((∀ o ∈ overridesOf (s.group g).holding, ∀ v, o.expiry = some v → s.count < v) →
            (∀ x ∈ after, x.group = g → s.count < x.activation) → Owed g t → Met g t)
        ∧ ∀ b a v, (s.group g).holding = .active b [] → Entry.ann a ∈ s.disp.queue → a.group = g → a.flavour = .new →
            a.content = e.setting → a.activation = some v → v ≤ s.count → MovesInv s →
            t.disp = s.disp ∧ t.tx = s.tx ∧ t.arb = s.arb ∧ (t.group g).due = (s.group g).due)
      ∧ ∀ b os x, (s.group g).holding = .active b os → (∀ o ∈ os, ∃ v, o.expiry = some v ∧ v ≤ s.count) →
        (∀ y ∈ after, y.group = g → s.count < y.activation) →
        (((∀ n, (s.group g).next = some n → s.count < n.activation) ∧ (s.group g).stated = some x)
          ∨ ∃ n, (s.group g).next = some n ∧ n.activation ≤ s.count ∧ x = { setting := n.setting, stamp := n.stamp }) →
        (s.group g).due = false → (∀ q ∈ s.disp.queue, isAnnOf g q = false) →
        ∀ cs : List Instr, cs.Perm [.scheduleActivation g, .layerExpiry g, .applicationOfNextStated g] →
          ∃ t, Runs cs s t ∧ (t.group g).holding = .active { setting := e.setting, origin := .schedule } []
            ∧ (x.setting = e.setting → (t.group g).stated = some x ∧ (∀ n, (t.group g).next = some n → s.count < n.activation)
                ∧ (t.group g).due = false ∧ ∀ q ∈ t.disp.queue, isAnnOf g q = false)
            ∧ (x.setting ≠ e.setting → MovesInv s → s.disp.queue.length < 16 →
                (t.group g).stated = some x ∧ t.disp.queue = s.disp.queue ++ [.ann
                  { group := g, content := e.setting, activation := none, flavour := .new, stamp := none, started := false
                    repeats := s.conf.defaultRepeat, done := 0, lastEnd := none, entryCount := s.count, origin := none
                    late := false }])
            ∧ (x.setting ≠ e.setting → MovesInv s → 16 ≤ s.disp.queue.length →
                (t.group g).due = true ∧ t.disp.queue = s.disp.queue))
    ∧ ((∀ x ∈ s.schedule, x.group = g → s.count < x.activation) → exec (.scheduleActivation g) s = .next s)

/-- R31, R32, R79: at the opening of an entry's reach, with the conditions of R32 and a place free, its pre-announcement is
entered as a NEW timed announcement and its mark becomes QUEUED. Where several entries open at one count, those that R32
admits are entered in list order into the places that are free, and every other stays as it is: one with a mark, behind an
earlier entry of its group, of an INACTIVE group or one with overrides, with an announcement entry, a due flag or a next
stated, or that finds no place. With no entry's reach opening, or between a line reset and the next counted crossing, no
announcement is entered for a group that is not due. The opening is a row of its own, apart from the other test moments (log
8). -/
def Obligations.OpeningEntersThePreAnnouncement : Prop :=
  ∀ (s : State),
    (∀ before e after b, s.schedule = before ++ e :: after →
      e.activation = s.count + min s.conf.leadWindow 65535 + announceSlots s.conf.broadcastGrade → s.count < e.activation →
      (∀ x ∈ before ++ after, x.activation ≠ e.activation) → (∀ x ∈ before ++ after, x.group = e.group → e.activation ≤ x.activation) →
      s.heldBack = false → e.mark = .none → (s.group e.group).holding = .active b [] → (∀ q ∈ s.disp.queue, isAnnOf e.group q = false) →
      (s.group e.group).due = false → (s.group e.group).next = none → s.disp.queue.length < 16 →
      ∃ t, exec .openingOfReach s = .next t ∧ Keeps s t
        ∧ { e with mark := .queued } ∈ t.schedule
        ∧ Entry.ann
            { group := e.group, content := e.setting, activation := some e.activation, flavour := .new, stamp := none
              started := false, repeats := s.conf.defaultRepeat, done := 0, lastEnd := none, entryCount := s.count
              origin := some e.origin, late := false } ∈ t.disp.queue)
    ∧ (∀ fit : SchedEntry → Bool,
        (∀ e, fit e = true ↔ e.activation = s.count + min s.conf.leadWindow 65535 + announceSlots s.conf.broadcastGrade
          ∧ s.count < e.activation ∧ e.mark = .none ∧ (∀ x ∈ s.schedule, x.group = e.group → e.activation ≤ x.activation)
          ∧ (∃ b, (s.group e.group).holding = .active b []) ∧ (∀ q ∈ s.disp.queue, isAnnOf e.group q = false)
          ∧ (s.group e.group).due = false ∧ (s.group e.group).next = none) →
        s.heldBack = false → MovesInv s → ScheduleInv s →
        ∀ entered, entered = (s.schedule.filter fit).take (16 - s.disp.queue.length) →
        ∃ t, exec .openingOfReach s = .next t ∧ Keeps s t ∧ t.groups = s.groups ∧ t.exch = s.exch
          ∧ t.schedule = s.schedule.map (fun x => if x ∈ entered then { x with mark := .queued } else x)
          ∧ t.disp.queue = s.disp.queue ++ entered.map (fun e => Entry.ann
              { group := e.group, content := e.setting, activation := some e.activation, flavour := .new, stamp := none
                started := false, repeats := s.conf.defaultRepeat, done := 0, lastEnd := none, entryCount := s.count
                origin := some e.origin, late := false }))
    ∧ ((s.heldBack = true
          ∨ ∀ x ∈ s.schedule, x.activation ≠ s.count + min s.conf.leadWindow 65535 + announceSlots s.conf.broadcastGrade) →
      ∃ t, exec .openingOfReach s = .next t ∧ Keeps s t
        ∧ ∀ a, Entry.ann a ∈ t.disp.queue → Entry.ann a ∉ s.disp.queue → (s.group a.group).due = true)

/-! ## Orders and fences (R58, R71 to R76, R153) -/

/-- R58, R71, R72, R73, R137, R138: an ORDER that finds room is answered DONE, or ADJUSTED when it gave a repeat count other
than 0. It stands at the tail with 8 live exchanges and no fence; behind a fence that is held; and, with an exchange free,
where the look-ahead window is full of announcements. With an exchange free, no fence and fewer than 4 entries it moves at
once, under the first tag from the counter on that no live exchange holds, within 8 values. Without room it is answered FULL
and the port's QUEUE SPACE mark is set. After a departure, with no group due, each port whose mark is set receives its QUEUE
SPACE notice and the mark is cleared where there is room, and else nothing happens. -/
def Obligations.OrderJoinsQueueOrTable : Prop :=
  (∀ (p : Port) (fields : List Byte) (f : OrderFields) (s : State), PortIdle p s → readOrder fields = some f →
    ((s.disp.queue.countP isWork < 12 ∧ s.disp.queue.length < 16) →
      ∃ t, exec (.order p fields) s = .next t
        ∧ Answered p .order (if f.repeats = none ∨ f.repeats = some 0 then .done else .adjusted) none .empty t
        ∧ Keeps s t
        ∧ (8 ≤ s.exch.table.length → (∀ e ∈ s.disp.queue, isFence e = false) →
            t.disp.queue = s.disp.queue
              ++ [.order { unit := f.unit, kind := f.kind, port := p, reference := f.reference }] ∧ t.exch = s.exch)
        ∧ (MovesInv s → ((∃ e ∈ s.disp.queue, isFence e = true) ∨ (s.exch.table.length < 8 ∧ 4 ≤ s.disp.queue.length)) →
            t.disp.queue = s.disp.queue
              ++ [.order { unit := f.unit, kind := f.kind, port := p, reference := f.reference }] ∧ t.exch = s.exch)
        ∧ (MovesInv s → (∀ e ∈ s.disp.queue, isFence e = false) → s.disp.queue.length < 4 → s.exch.table.length < 8 →
            ((∀ g, (s.group g).due = false) → t.disp.queue = s.disp.queue)
            ∧ ∃ (k : Nat) (tag : Tag), k < 8 ∧ tag = s.exch.tagCounter + BitVec.ofNat 8 k
            ∧ (∀ j < k, ∃ x ∈ s.exch.table, x.tag = s.exch.tagCounter + BitVec.ofNat 8 j)
            ∧ (∀ x ∈ s.exch.table, x.tag ≠ tag)
            ∧ t.exch.tagCounter = tag + 1 ∧ t.exch.ready = s.exch.ready ++ [tag]
            ∧ t.exch.table = s.exch.table ++ [
              { tag := tag, unit := f.unit, kind := f.kind, port := p, reference := f.reference
                state := .ready, retries := if s.conf.retryLimit = 7 then .unlimited else .limited s.conf.retryLimit
                defers := 4, fallback := 0, attempt := none, attempts := 0, deadline := none, holdUntil := none
                fenceMark := false, cancelPending := false }]))
    ∧ (¬ (s.disp.queue.countP isWork < 12 ∧ s.disp.queue.length < 16) →
      exec (.order p fields) s = .next (answer p .order .full none .empty id
        (s.setDisp { s.disp with spaceMarks := s.disp.spaceMarks.set p true }))))
  ∧ ∀ (n : Nat) (s t : State), n ≠ 0 → (∀ g, (s.group g).due = false) → t = afterFreed n s →
    ((s.disp.queue.countP isWork < 12 ∧ s.disp.queue.length < 16) →
      t.disp.queue = s.disp.queue ∧ t.disp.sending = s.disp.sending ∧ t.groups = s.groups ∧ t.exch = s.exch
      ∧ ∀ q, t.disp.spaceMarks.get q = false
        ∧ (s.disp.spaceMarks.get q = true → Told q .queueSpace s t)
        ∧ (s.disp.spaceMarks.get q = false → t.port q = s.port q))
    ∧ (¬ (s.disp.queue.countP isWork < 12 ∧ s.disp.queue.length < 16) → t = s)

/-- R72, R74, R75: a FENCE behind a fence of its own port adds nothing; with room it marks every live exchange. Behind other
entries it joins the tail and stays; alone in the queue it stays while an exchange lives, and leaves at once with none.
Without room it is answered FULL. -/
def Obligations.FenceMarksTheLiveExchanges : Prop :=
  ∀ (p : Port) (s : State), PortIdle p s →
    (s.disp.queue.getLast? = some (.fence p) →
      exec (.fence p []) s = .next (answer p .fence .done none .empty id s))
    ∧ (s.disp.queue.getLast? ≠ some (.fence p) → (s.disp.queue.countP isWork < 12 ∧ s.disp.queue.length < 16) →
      ∃ t, exec (.fence p []) s = .next t ∧ Answered p .fence .done none .empty t ∧ Keeps s t
        ∧ (∀ x ∈ s.exch.table, { x with fenceMark := true } ∈ t.exch.table)
        ∧ (s.disp.queue ≠ [] → MovesInv s → t.disp.queue = s.disp.queue ++ [.fence p]
            ∧ t.exch = { s.exch with table := s.exch.table.map fun x => { x with fenceMark := true } })
        ∧ (s.disp.queue = [] → s.exch.table ≠ [] → t.disp.queue = [.fence p])
        ∧ (s.disp.queue = [] → s.exch.table = [] → ∀ e ∈ t.disp.queue, isFence e = false))
    ∧ (s.disp.queue.getLast? ≠ some (.fence p) → ¬ (s.disp.queue.countP isWork < 12 ∧ s.disp.queue.length < 16) →
      exec (.fence p []) s = .next (answer p .fence .full none .empty id
        (s.setDisp { s.disp with spaceMarks := s.disp.spaceMarks.set p true })))

/-- R72, R73, R75, R76, R137, R138, R153, R155, R156: CANCL ends the port's orders of its reference: none stays in the queue,
and an exchange of them that is still live is SENDING with cancel-pending set; of each that has ended, while the port does not
shed, it is told ORDER ENDED with CANCELLED; the other port's orders are no candidates; with none named the outcome is NOT
FOUND. With no group due, the departure of a queued order makes room for the ports whose QUEUE SPACE mark is set. Where it
ends the last marked exchange, a fence that waited at the head leaves, and the order behind it moves. -/
def Obligations.CanclEndsTheNamedOrders : Prop :=
  ∀ (p : Port) (ref : Byte) (s : State), PortIdle p s →
    ((∀ e ∈ s.disp.queue, namesOrder p ref e = false) → (∀ x ∈ s.exch.table, ¬ (x.port = p ∧ x.reference = ref)) →
      exec (.cancl p [ref]) s = .next (answer p .cancl .notFound none .empty id s))
    ∧ (((∃ e ∈ s.disp.queue, namesOrder p ref e = true) ∨ ∃ x ∈ s.exch.table, x.port = p ∧ x.reference = ref) →
      ∃ t, exec (.cancl p [ref]) s = .next t ∧ Answered p .cancl .done none .empty t ∧ Keeps s t
        ∧ (∀ e ∈ t.disp.queue, namesOrder p ref e = false)
        ∧ (∀ x ∈ t.exch.table, x.port = p → x.reference = ref → x.state = .sending ∧ x.cancelPending = true)
        ∧ ((s.exch.table.map (·.tag)).Nodup →
            ∀ x ∈ s.exch.table, ¬ (x.port = p ∧ x.reference = ref) → x ∈ t.exch.table)
        ∧ ((t.port p).shedding = false →
            (∀ o, Entry.order o ∈ s.disp.queue → o.port = p → o.reference = ref →
              { count := s.count, body := (.orderEnded
                { reference := ref, unit := o.unit, kind := o.kind, ending := .cancelled, tag := none, attempts := 0
                  lastGrade := none, retries := none, defers := none, reply := none, comparison := none }) }
                ∈ (t.port p).notices)
            ∧ ((s.exch.table.map (·.tag)).Nodup → ∀ x ∈ s.exch.table, x.port = p → x.reference = ref → x.state ≠ .sending →
              { count := s.count, body := (.orderEnded
                { reference := ref, unit := x.unit, kind := x.kind, ending := .cancelled, tag := some x.tag
                  attempts := x.attempts, lastGrade := x.attempt.map (·.grade), retries := some x.retries
                  defers := some x.defers, reply := none, comparison := none }) } ∈ (t.port p).notices))
        ∧ ((∃ e ∈ s.disp.queue, namesOrder p ref e = true) → s.disp.queue.length ≤ 16 → s.disp.queue.countP isWork ≤ 12 →
            (∀ g, (s.group g).due = false) → ∀ q, t.disp.spaceMarks.get q = false
              ∧ (s.disp.spaceMarks.get q = true → (t.port q).shedding = false →
                  { count := s.count, body := .queueSpace } ∈ (t.port q).notices))
        ∧ ∀ q x o, s.disp.queue = [.fence q, .order o] → s.exch.table = [x] → x.fenceMark = true → x.port = p →
            x.reference = ref →
            x.state ≠ .sending → namesOrder p ref (.order o) = false → (∀ g, (s.group g).due = false) →
            t.disp.queue = []
            ∧ t.exch = { tagCounter := s.exch.tagCounter + 1, ready := s.exch.ready.filter (· ≠ x.tag) ++ [s.exch.tagCounter]
                         table := [
                          { tag := s.exch.tagCounter, unit := o.unit, kind := o.kind, port := o.port, reference := o.reference
                            state := .ready, retries := if s.conf.retryLimit = 7 then .unlimited else .limited s.conf.retryLimit
                            defers := 4, fallback := 0, attempt := none, attempts := 0, deadline := none, holdUntil := none
                            fenceMark := false, cancelPending := false }] })

/-- R8, R12, R24, R64, R77: a REFSH is answered INACTIVE for an INACTIVE group. Else a next stated whose count has come is
applied first. Where the stated setting is then present and the effective setting, the group has no entry and its due flag is
clear, a CATCH-UP of it is appended for the port, or, with 16 places held, the outcome is FULL; where the group is due, or has
an entry and a stated setting, nothing is entered, the queue stands, and the outcome is DONE; where the stated setting is
absent the check asks for what is owed, but for what is left to events still to act (log 32). With no count come, a CATCH-UP
goes out whatever the effective setting is. -/
def Obligations.RefshRepeatsTheStatedSetting : Prop :=
  ∀ (p : Port) (fields : List Byte) (g : GroupNo) (s : State), PortIdle p s → readGroupOnly fields = some g →
    (isActive (s.group g).holding = false →
      exec (.refsh p fields) s = .next (answer p .refsh .inactive none .empty id s))
    ∧ (isActive (s.group g).holding = true →
      ∃ t o, exec (.refsh p fields) s = .next t ∧ Answered p .refsh o none .empty t ∧ Keeps s t
        ∧ (∀ st, (((∀ n, (s.group g).next = some n → s.count < n.activation) ∧ (s.group g).stated = some st)
              ∨ ∃ n, (s.group g).next = some n ∧ n.activation ≤ s.count ∧ st = { setting := n.setting, stamp := n.stamp }
                  ∧ effectiveOf (s.group g).holding = some n.setting) →
            (s.group g).due = false → (∀ e ∈ s.disp.queue, isAnnOf g e = false) →
            (t.group g).stated = some st
            ∧ (s.disp.queue.length < 16 → o = .done ∧ Entry.ann
              { group := g, content := st.setting, activation := none, flavour := .catchUp, stamp := some st.stamp
                started := false, repeats := 0, done := 0, lastEnd := none, entryCount := s.count, origin := some p
                late := false } ∈ t.disp.queue)
            ∧ (16 ≤ s.disp.queue.length → o = .full))
        ∧ (((∀ n, (s.group g).next = some n → s.count < n.activation)
              ∧ ((s.group g).due = true ∨ ((∃ e ∈ s.disp.queue, isAnnOf g e = true) ∧ (s.group g).stated ≠ none))) →
            o = .done ∧ (MovesInv s → t.disp.queue = s.disp.queue ∧ t.exch = s.exch ∧ t.groups = s.groups)
            ∧ ∀ a, Entry.ann a ∈ t.disp.queue → a.flavour = .catchUp → Entry.ann a ∈ s.disp.queue)
        ∧ (((∃ e ∈ s.disp.queue, isAnnOf g e = true) ∨ (s.group g).due = true
            ∨ ((s.group g).stated = none ∧ (s.group g).next = none)) → o = .done)
        ∧ (((s.group g).stated = none ∨ ∃ n, (s.group g).next = some n ∧ n.activation ≤ s.count) →
            Owed g t → Met g t ∨ LeftToEvents g t))

/-! ## Exchanges (R136 to R156) -/

/-- R144, R145, R149, R155, R165: the timers of an exchange. At its deadline an exchange in WAITING goes back to READY at the
tail of the ready order, charged a retry and a step of fallback in PRESENT and nothing otherwise; with no retry left it ends
UNREACHED and its port is told, and its unit's route is removed, its place emptied and the last-used index none where it named
that place, when the route is unpinned and was written before the start of the latest attempt, and is kept otherwise. The end
of the event follows. At its hold-until an exchange in HELD goes to READY at the tail of the ready order, in every mains
state, and nothing else of it changes. Before its count, or in another state, nothing happens. A count reached is one at or
before the mains count (log 2). -/
def Obligations.ExchangeTimersAct : Prop :=
  (∀ (x : Exchange) (before after : List Exchange) (d : Count) (s : State),
    s.exch.table = before ++ x :: after → (∀ y ∈ before ++ after, y.tag ≠ x.tag) → x.state = .waiting →
    x.deadline = some d → d ≤ s.count →
    (s.time.state ≠ .present →
      exec (.answerWindow x.tag) s = .next (closeEvent 0 (s.setExch
        { table := before ++ { x with state := .ready, deadline := none } :: after, tagCounter := s.exch.tagCounter
          ready := s.exch.ready ++ [x.tag] })))
    ∧ (∀ r, s.time.state = .present → (x.retries = .unlimited ∧ r = .unlimited
          ∨ ∃ n, x.retries = .limited (n + 1) ∧ r = .limited n) →
      exec (.answerWindow x.tag) s = .next (closeEvent 0 (s.setExch
        { table := before
            ++ { x with state := .ready, deadline := none, retries := r, fallback := min 2 (x.fallback + 1) } :: after
          tagCounter := s.exch.tagCounter, ready := s.exch.ready ++ [x.tag] })))
    ∧ (s.time.state = .present → x.retries = .limited 0 → RouteInv s.routes →
      ∀ att, x.attempt = some att → x.tag ∉ s.exch.ready →
      ∃ c, (∀ i r, s.routes.places.get i = some r → r.unit = x.unit →
            (r.pinned = false → r.written < att.start →
              c = { places := s.routes.places.set i none
                    lastUsed := if s.routes.lastUsed = some i then none else s.routes.lastUsed })
            ∧ ((r.pinned = true ∨ att.start ≤ r.written) → c = s.routes))
        ∧ (Unrouted x.unit s.routes → c = s.routes)
        ∧ exec (.answerWindow x.tag) s = .next (closeEvent 0 ((notify x.port (.orderEnded
              { reference := x.reference, unit := x.unit, kind := x.kind, ending := .unreached, tag := some x.tag
                attempts := x.attempts, lastGrade := some att.grade, retries := some (.limited 0), defers := some x.defers
                reply := none, comparison := none })
            (s.setRoutes c)).setExch { table := before ++ after, tagCounter := s.exch.tagCounter, ready := s.exch.ready }))))
  ∧ (∀ (x : Exchange) (before after : List Exchange) (d : Count) (s : State),
    s.exch.table = before ++ x :: after → (∀ y ∈ before ++ after, y.tag ≠ x.tag) → x.state = .held →
    x.holdUntil = some d → d ≤ s.count →
    exec (.hold x.tag) s = .next (s.setExch
      { table := before ++ { x with state := .ready, holdUntil := none } :: after, tagCounter := s.exch.tagCounter
        ready := s.exch.ready ++ [x.tag] }))
  ∧ ∀ (t : Tag) (s : State),
    ((∀ x ∈ s.exch.table, x.tag = t → x.state ≠ .waiting ∨ ∀ d, x.deadline = some d → s.count < d) →
      exec (.answerWindow t) s = .next s)
    ∧ ((∀ x ∈ s.exch.table, x.tag = t → x.state ≠ .held ∨ ∀ d, x.holdUntil = some d → s.count < d) →
      exec (.hold t) s = .next s)

/-! ## What no step leaves undone (R8, R73, R75) -/

/-- R8, R9, R11, R12, R60 to R63, R65, R73, R75: no step leaves anything undone. After every step each ACTIVE group whose
setting is owed has an announcement entry or its due flag, or is left to events that are still to act (log 32, log 37); no order that
can move into the exchange table stays in the look-ahead window; and no fence stays at the head that no live exchange holds
there. -/
def Obligations.StepLeavesNothingUndone : Prop :=
  ∀ s t : State, step s = .next t → (DebtInv s → DebtInv t) ∧ (MovesInv s → MovesInv t)

/-! ## Answers (R146 to R152) -/

/-- R146 to R148, R151, R152: what an answer does to the exchange of its tag and unit outside SENDING: a REJECT, and an ACCEPT
of the right form for ASSIGN and TEST, end it with its notice; a DEFER holds it from the present count, or ends it
DEFERRED-OUT with none left. An answer of a tag that no live exchange holds, of another unit, to an exchange in SENDING, or an
ACCEPT of the wrong form, does nothing. An accepted QUERY ends with the comparison of the reply with the record of the
expected group: FOREIGN, UNORDERED, MATCH or BEHIND; only BEHIND asks for a catch-up, before the notice. -/
def Obligations.AnswersActOnTheirExchange : Prop :=
  (∀ (a : Answer) (s : State), (∀ x ∈ s.exch.table, x.tag ≠ a.tag) →
    (takeAnswer a s).state = s ∧ (takeAnswer a s).made = false ∧ (takeAnswer a s).freed = 0)
  ∧ (∀ (a : Answer) (x : Exchange) (before after : List Exchange) (s : State),
    s.exch.table = before ++ x :: after → (∀ y ∈ before ++ after, y.tag ≠ x.tag) → a.tag = x.tag →
    ((a.source ≠ x.unit ∨ x.state = .sending
        ∨ (a.outcome = 1 ∧ (a.reply = none ↔ ∃ g, x.kind = .query g))) → (takeAnswer a s).state = s)
    ∧ (∀ e, a.source = x.unit → x.state ≠ .sending →
        (a.outcome = 2 ∧ e = .rejected
          ∨ a.outcome = 1 ∧ a.reply = none ∧ (∀ g, x.kind ≠ .query g) ∧ e = .accepted
          ∨ a.outcome = 3 ∧ x.defers = 0 ∧ e = .deferredOut) →
        (takeAnswer a s).state = (notify x.port (.orderEnded
            { reference := x.reference, unit := x.unit, kind := x.kind, ending := e, tag := some x.tag
              attempts := x.attempts, lastGrade := x.attempt.map (·.grade), retries := some x.retries
              defers := some x.defers, reply := none, comparison := none }) s).setExch
          { table := before ++ after, tagCounter := s.exch.tagCounter, ready := s.exch.ready.filter (· ≠ x.tag) })
    ∧ (∀ n, a.source = x.unit → x.state ≠ .sending → a.outcome = 3 → x.defers = n + 1 →
        (takeAnswer a s).state = s.setExch
          { table := before ++ { x with
              state := .held, defers := n, deadline := none, holdUntil := some (s.count + s.conf.holdInterval) } :: after
            tagCounter := s.exch.tagCounter, ready := s.exch.ready.filter (· ≠ x.tag) }))
  ∧ ∀ (a : Answer) (x : Exchange) (g : GroupNo) (r : Reply) (before after : List Exchange) (s : State),
    s.exch.table = before ++ x :: after → (∀ y ∈ before ++ after, y.tag ≠ x.tag) → a.tag = x.tag → a.source = x.unit →
    x.state ≠ .sending → x.kind = .query g → a.outcome = 1 → a.reply = some r →
    ∀ c,
      (c = .foreign ∧ r.group ≠ g.val
        ∨ c = .unordered ∧ r.group = g.val ∧ (isActive (s.group g).holding = false ∨ (s.group g).stated = none)
        ∨ c = .same ∧ r.group = g.val ∧ isActive (s.group g).holding = true
            ∧ (s.group g).stated = some { setting := r.setting, stamp := r.stamp }
        ∨ c = .behind ∧ r.group = g.val ∧ isActive (s.group g).holding = true
            ∧ ∃ st, (s.group g).stated = some st ∧ st ≠ { setting := r.setting, stamp := r.stamp }) →
      (takeAnswer a s).state = (notify x.port (.orderEnded
          { reference := x.reference, unit := x.unit, kind := x.kind, ending := .accepted, tag := some x.tag
            attempts := x.attempts, lastGrade := x.attempt.map (·.grade), retries := some x.retries
            defers := some x.defers, reply := some r, comparison := some c })
          (if c = .behind then (catchUp g none s).state else s)).setExch
        { table := before ++ after, tagCounter := s.exch.tagCounter, ready := s.exch.ready.filter (· ≠ x.tag) }

/-! ## Line frames (R54, R97 to R101) -/

/-- R54, R97 to R101: the frame check starts at all ones and takes each byte bit by bit, the most significant first, with the
generator x^16 + x^12 + x^5 + 1; over the nine bytes 49 to 57 it is 10673. It follows the bytes it is over, most significant
byte first, and is 0 over any bytes followed by their own check. The payloads of an ANNOUNCE and of an ORDER frame are the bytes
that R100 lays out. A frame the part builds is the code of its kind, its destination, its source, its control byte with position
index 0, its relay path, its payload and its check; it reads back as its fields, is 10 bytes, 3 for each relay and its payload
long, and passes the frame check; its slots are 2 and the least number that carries its body at 12, 4 or 1 bytes a slot. -/
def Obligations.FramesRoundTrip : Prop :=
  (frameCheck [] = 65535#16 ∧ frameCheck [49, 50, 51, 52, 53, 54, 55, 56, 57] = 10673#16
    ∧ ∀ (bs : List Byte) (b : Byte), ∃ r : Nat → BitVec 16, r 0 = frameCheck bs ∧ r 8 = frameCheck (bs ++ [b])
      ∧ ∀ i < 8, r (i + 1) = if (r i).getLsbD 15 ≠ b.getLsbD (7 - i) then (r i <<< 1) ^^^ 4129#16 else r i <<< 1)
  ∧ (∀ (g : GroupNo) (x : Stamp) (cd : Nat) (st : Setting), cd ≤ 65535 → st.rate < 256 → st.level < 256 →
    (announcePayload g x cd st).map (·.toNat) = [g.val, x.toNat / 256, x.toNat % 256, cd / 256, cd % 256, st.rate
      , (if st.relays.getLsbD 0 then 1 else 0) + (if st.relays.getLsbD 1 then 2 else 0)
        + (if st.relays.getLsbD 2 then 4 else 0) + (if st.relays.getLsbD 3 then 8 else 0)
      , st.level])
  ∧ (∀ (tag : Tag) (g : GroupNo),
    (orderPayload tag (.assign g)).map (·.toNat) = [tag.toNat, 1, g.val]
      ∧ (orderPayload tag (.query g)).map (·.toNat) = [tag.toNat, 2]
      ∧ (orderPayload tag .test).map (·.toNat) = [tag.toNat, 3])
  ∧ (∀ bytes : List Byte, frameCheck (withCheck bytes) = 0
      ∧ ∃ check, withCheck bytes = bytes ++ check ∧ Spells [(2, (frameCheck bytes).toNat)] check)
  ∧ (∀ (k : FrameKind) (dest source hop : Nat) (path : List UnitNo) (payload : List Byte),
    dest < 2 ^ 24 → source < 2 ^ 24 → hop ≤ 3 → path.length ≤ 3 → (∀ u ∈ path, u < 2 ^ 24) →
    (buildBody k dest source hop path payload).length = 10 + 3 * path.length + payload.length
      ∧ frameCheck (buildBody k dest source hop path payload) = 0
      ∧ (∃ head check, buildBody k dest source hop path payload = head ++ payload ++ check
          ∧ Spells ((1, match k with
              | .announce => 1
              | .order => 2
              | .answer => 3
              | .report => 4
              | .receipt => 5) :: (3, dest) :: (3, source) :: (1, 16 * path.length + hop) :: path.map fun u => (3, u)) head
          ∧ Spells [(2, (frameCheck (head ++ payload)).toNat)] check)
      ∧ destOf (buildBody k dest source hop path payload) = dest
      ∧ sourceOf (buildBody k dest source hop path payload) = source
      ∧ (byteAt (buildBody k dest source hop path payload) 7).toNat % 4 = hop
      ∧ positionIndex (buildBody k dest source hop path payload) = 0
      ∧ pathOf (buildBody k dest source hop path payload) = path
      ∧ payloadOf (buildBody k dest source hop path payload) = payload)
  ∧ ∀ (b : Nat) (g : Grade), ∃ n, slotsOf b g = 2 + n
    ∧ b ≤ n * (match g with
        | .g1 => 12
        | .g2 => 4
        | .g3 => 1)
    ∧ ∀ m, b ≤ m * (match g with
        | .g1 => 12
        | .g2 => 4
        | .g3 => 1) → n ≤ m

/-! ## The line (R107 to R119) -/

/-- R66, R67, R108 to R112, R116, R128, R161: a crossing's claims are judged once. In BACKOFF, at its end in PRESENT, they are
judged with the Transmitter IDLE; before it nothing is granted. With the claims already judged, or the line not claimable
(mains not PRESENT, no station number, Transmitter not IDLE, no quiet slot, a carrier heard), or no claim (no receipt to send,
no READY exchange, and none of the announcements in places 1 to 4 and not behind a fence eligible), no grant is made. At a
crossing at which the line can be claimed the oldest receipt not on the line goes first, whatever the exchanges and the queue
hold: over its report's path reversed, at its grade, on its route's phase or on ALL; the lookup makes the place of the unit's
route the last-used one; the line is busy from the grant on. A crossing's claims are judged once, at the CLAIM row (log 10); a
backoff end reached is one at or before the mains count (log 2). -/
def Obligations.ReceiptIsGrantedFirst : Prop :=
  (∀ s : State, s.tx.state ≠ .backoff →
    (s.arb.claimOpen = false → exec .claim s = .next s)
    ∧ ((s.time.state ≠ .present ∨ s.conf.station = 0 ∨ s.tx.state ≠ .idle ∨ s.arb.quiet = false ∨ carrierHeard s = true
        ∨ ((∀ r ∈ s.rx.receipts, r.onLine = true) ∧ s.exch.ready = []
          ∧ ∀ ahead a behind, s.disp.queue = ahead ++ .ann a :: behind → ahead.length < 4 → (∀ e ∈ ahead, isFence e = false) →
            eligible s a = false)) →
      exec .claim s = .next (s.setArb { s.arb with claimOpen := false })))
  ∧ (∀ (s : State) (b : Count), s.tx.state = .backoff → s.tx.backoffEnd = some b →
    (b ≤ s.count → s.time.state = .present →
      exec .claim s = exec .claim (s.setTx { s.tx with state := .idle, backoffEnd := none }))
    ∧ ((s.count < b ∨ s.time.state ≠ .present) →
      exec .claim s = .next (s.setArb { s.arb with claimOpen := false })))
  ∧ ∀ (s : State) (before after : List Receipt) (r : Receipt),
    s.arb.claimOpen = true → s.tx.state = .idle → canClaim s = true → s.rx.receipts = before ++ r :: after →
    (∀ q ∈ before, q.onLine = true) → r.onLine = false →
    (∀ q ∈ before ++ after, ¬ (q.unit = r.unit ∧ q.number = r.number)) →
    ∃ t, exec .claim s = .next t
      ∧ t.arb = { holder := .receipt r.unit r.number, quiet := s.arb.quiet, busy := true, claimOpen := false }
      ∧ t.tx.state = .sending
      ∧ t.rx.receipts = before ++ { r with onLine := true } :: after
      ∧ (∃ f, t.tx.frame = some f ∧ f.kind = .receipt ∧ f.grade = r.grade ∧ f.start = s.count
          ∧ f.body = buildBody .receipt r.unit s.conf.station 0 r.path [r.number]
          ∧ f.slots = slotsOf f.body.length r.grade ∧ f.endCount = s.count + f.slots
          ∧ f.phase = (match routeOf s.routes r.unit with
              | some q => .one q.phase
              | none => .all))
      ∧ t.routes.places = s.routes.places
      ∧ (RouteInv s.routes → ∀ i q, s.routes.places.get i = some q → q.unit = r.unit → t.routes.lastUsed = some i)
      ∧ (Unrouted r.unit s.routes → t.routes = s.routes) ∧ t.exch = s.exch ∧ t.disp = s.disp ∧ t.groups = s.groups ∧ t.ports = s.ports
      ∧ t.time = s.time ∧ t.schedule = s.schedule ∧ t.conf = s.conf

/-- R108, R110, R112, R139, R140, R161: with no receipt to send, the exchange at the head of the ready order is granted: it
goes to SENDING with its attempt fixed from the route looked up, its grade raised by the fallback to at most 3, or direct on
ALL at grade 3. A hit makes the place of its route the last-used one; a miss changes nothing of the cache. The line is busy
from the grant on; the claims of the crossing are closed (log 10). -/
def Obligations.ExchangeIsGrantedNext : Prop :=
  ∀ (s : State) (x : Exchange) (before after : List Exchange) (rest : List Tag),
    s.arb.claimOpen = true → s.tx.state = .idle → canClaim s = true → (∀ q ∈ s.rx.receipts, q.onLine = true) →
    s.exch.ready = x.tag :: rest → x.tag ∉ rest →
    s.exch.table = before ++ x :: after → (∀ y ∈ before ++ after, y.tag ≠ x.tag) →
    ∃ t f att, exec .claim s = .next t
      ∧ t.arb = { holder := .exchange x.tag, quiet := s.arb.quiet, busy := true, claimOpen := false }
      ∧ t.tx.state = .sending ∧ t.tx.frame = some f ∧ f.kind = .order ∧ f.start = s.count
      ∧ t.exch = { table := before ++ { x with state := .sending, attempt := some att } :: after
                   tagCounter := s.exch.tagCounter, ready := rest }
      ∧ (match routeOf s.routes x.unit with
          | some q => f.phase = .one q.phase ∧ f.grade = raiseGrade q.grade x.fallback ∧ att.relays = q.path.length
              ∧ f.body = buildBody .order x.unit s.conf.station 0 q.path (orderPayload x.tag x.kind)
          | none => f.phase = .all ∧ f.grade = .g3 ∧ att.relays = 0
              ∧ f.body = buildBody .order x.unit s.conf.station 0 [] (orderPayload x.tag x.kind))
      ∧ f.slots = slotsOf f.body.length f.grade ∧ f.endCount = s.count + f.slots
      ∧ att.grade = f.grade ∧ att.start = s.count ∧ att.endCount = f.endCount
      ∧ t.routes.places = s.routes.places
      ∧ (RouteInv s.routes → ∀ i q, s.routes.places.get i = some q → q.unit = x.unit → t.routes.lastUsed = some i)
      ∧ (Unrouted x.unit s.routes → t.routes = s.routes)
      ∧ t.rx = s.rx ∧ t.disp = s.disp ∧ t.groups = s.groups ∧ t.ports = s.ports
      ∧ t.time = s.time ∧ t.schedule = s.schedule ∧ t.conf = s.conf

/-- R7, R11, R12, R28, R66 to R68, R82 to R85, R110: with no receipt and no READY exchange, the first eligible announcement of
the window is granted: a NEW entry with no stamp takes the group's advanced counter, and next stated is made absent, with the
COMPLETED mark of its schedule entry; the stated setting stays, but that a next stated whose count has come is applied first,
and its mark stands (log 34); the ANNOUNCE carries its stamp and the countdown to its activation from the frame's end, and
goes on ALL phases at the broadcast grade. The line is busy from the grant on; the claims of the crossing are closed (log 10).
-/
def Obligations.AnnouncementIsGrantedLast : Prop :=
  ∀ (s : State) (ahead behind : List Entry) (a : Ann),
    s.arb.claimOpen = true → s.tx.state = .idle → canClaim s = true → (∀ q ∈ s.rx.receipts, q.onLine = true) →
    s.exch.ready = [] → s.disp.queue = ahead ++ .ann a :: behind → ahead.length < 4 → (∀ e ∈ ahead, isFence e = false) →
    (∀ b, Entry.ann b ∈ ahead → eligible s b = false) → eligible s a = true →
    ∃ t x cd, exec .claim s = .next t
      ∧ (∀ y, a.stamp = some y → x = y ∧ t.groups = s.groups ∧ t.schedule = s.schedule)
      ∧ (a.stamp = none → x = (s.group a.group).stampCounter + 1 ∧ (t.group a.group).stampCounter = x
          ∧ (t.group a.group).next = none ∧ (t.group a.group).holding = (s.group a.group).holding
          ∧ (t.group a.group).due = (s.group a.group).due ∧ (∀ g, g ≠ a.group → t.group g = s.group g)
          ∧ ((s.group a.group).next = none → (t.group a.group).stated = (s.group a.group).stated ∧ t.schedule = s.schedule)
          ∧ (∀ n, (s.group a.group).next = some n → s.count < n.activation →
              (t.group a.group).stated = (s.group a.group).stated
              ∧ t.schedule = s.schedule.map (fun e =>
                  if e.group = a.group ∧ e.activation = n.activation ∧ e.mark = .completed then { e with mark := .none } else e))
          ∧ (∀ n, (s.group a.group).next = some n → n.activation ≤ s.count →
              (t.group a.group).stated = some { setting := n.setting, stamp := n.stamp } ∧ t.schedule = s.schedule))
      ∧ cd = (match a.activation with
          | some v => v - (s.count + announceSlots s.conf.broadcastGrade)
          | none => 0) ∧ cd ≤ 65535
      ∧ t.disp.queue = ahead ++ .ann { a with started := true, stamp := some x } :: behind
      ∧ t.disp.sending = some
          { group := a.group, start := s.count, grade := s.conf.broadcastGrade
            slots := announceSlots s.conf.broadcastGrade, endCount := s.count + announceSlots s.conf.broadcastGrade
            hop := s.conf.broadcastHop, stamp := x, countdown := cd }
      ∧ t.arb = { holder := .announcement a.group, quiet := s.arb.quiet, busy := true, claimOpen := false }
      ∧ t.tx.state = .sending
      ∧ t.tx.frame = some
          { kind := .announce, phase := .all, grade := s.conf.broadcastGrade, start := s.count
            slots := announceSlots s.conf.broadcastGrade, endCount := s.count + announceSlots s.conf.broadcastGrade
            body := buildBody .announce 16777215 s.conf.station s.conf.broadcastHop [] (announcePayload a.group x cd a.content) }
      ∧ t.exch = s.exch ∧ t.rx = s.rx ∧ t.routes = s.routes ∧ t.ports = s.ports ∧ t.time = s.time ∧ t.conf = s.conf

/-- R87, R88, R114, R128, R141, R143, R155: at its end count, in PRESENT, the frame ends whole: the Transmitter is released
and the holder acts. A receipt leaves its list; an exchange counts an attempt and waits for its answer window, or ends
CANCELLED where that was asked, and leaves the table and the ready order; an announcement with repeats left counts the
transmission and waits for the next. Before the end count, or in another mains state, nothing happens. An end count reached is
one at or before the mains count (log 2). -/
def Obligations.FrameEndsWhole : Prop :=
  ∀ (s : State) (f : Frame), s.tx.state = .sending → s.tx.frame = some f →
    ((s.count < f.endCount ∨ s.time.state ≠ .present) → exec .frameWholeEnd s = .next s)
    ∧ (f.endCount ≤ s.count → s.time.state = .present →
      ∃ t, exec .frameWholeEnd s = .next t ∧ t.arb.holder = .none ∧ t.tx.frame = none
        ∧ t.tx.state = (if s.conf.station = 0 then .dormant else .idle)
        ∧ t.time = s.time ∧ t.conf = s.conf ∧ t.routes = s.routes
        ∧ (∀ g, (t.group g).holding = (s.group g).holding ∧ (t.group g).stampCounter = (s.group g).stampCounter)
        ∧ (∀ before r after, s.arb.holder = .receipt r.unit r.number → s.rx.receipts = before ++ r :: after →
            (∀ q ∈ before, ¬ (q.unit = r.unit ∧ q.number = r.number)) →
            t.rx.receipts = before ++ after ∧ t.disp = s.disp ∧ t.exch = s.exch ∧ t.groups = s.groups ∧ t.ports = s.ports)
        ∧ (∀ before x after att, s.arb.holder = .exchange x.tag → s.exch.table = before ++ x :: after →
            (∀ y ∈ before ++ after, y.tag ≠ x.tag) → x.cancelPending = false → x.attempt = some att →
            { x with
              state := .waiting, attempts := x.attempts + 1
              deadline := some (f.endCount
                + (att.relays * (slotsOf (orderBody x.kind att.relays) att.grade + 2) + 4
                  + (att.relays + 1) * slotsOf (answerBody x.kind att.relays) att.grade + 2 * att.relays
                  + s.conf.answerMargin)) } ∈ t.exch.table)
        ∧ (∀ before x after, s.arb.holder = .exchange x.tag → s.exch.table = before ++ x :: after →
            (∀ y ∈ before ++ after, y.tag ≠ x.tag) → x.cancelPending = true →
            (∀ y ∈ before ++ after, y ∈ t.exch.table)
            ∧ (∀ y ∈ t.exch.table, y.tag = x.tag → y.state = .ready ∧ y.attempts = 0)
            ∧ ((∀ e ∈ s.disp.queue, isWork e = false) → t.exch =
              { table := before ++ after, tagCounter := s.exch.tagCounter, ready := s.exch.ready.filter (· ≠ x.tag) })
            ∧ Told x.port (.orderEnded
                { reference := x.reference, unit := x.unit, kind := x.kind, ending := .cancelled, tag := some x.tag
                  attempts := x.attempts + 1, lastGrade := x.attempt.map (·.grade), retries := some x.retries
                  defers := some x.defers, reply := none, comparison := none }) s t)
        ∧ (∀ g tr ahead a behind, s.arb.holder = .announcement g → s.disp.sending = some tr → tr.group = a.group →
            s.disp.queue = ahead ++ .ann a :: behind → (∀ e ∈ ahead, isInFlight a.group e = false) → a.started = true →
            a.repeats ≠ 0 →
            t.disp.sending = none
            ∧ t.disp.queue = ahead ++ .ann
                { a with
                  done := a.done + 1, lastEnd := some tr.endCount, repeats := a.repeats - 1
                  late := a.late || (match a.activation with
                    | some v => decide (v ≤ tr.endCount)
                    | none => false) } :: behind
            ∧ t.groups = s.groups ∧ t.exch = s.exch ∧ t.rx = s.rx ∧ t.ports = s.ports))

/-- R10, R12, R22, R28, R31 to R34, R86, R88, R95, R96: an announcement, NEW or CATCH-UP, whose last repeat ends whole
completes: it leaves the queue; an immediate one becomes the stated setting, and a next stated still ahead stays; a timed one
that ended before its activation becomes next stated and its schedule entry's mark COMPLETED, also where something is owed, and
is applied at once where that count has come meanwhile; one that ended later becomes the stated setting, and next stated is
absent; its origin port is told COMPLETED, or COMPLETED-LATE where a transmission of it ended at its activation count or after;
a GWAIT whose group settles is answered. A next stated whose count has come is applied first (R12; log 34). Where what
completed is the base's setting, with the base on top and no next stated, the group's earliest entry, its mark NONE, is
pre-announced if it is within its reach, no line reset holds pre-announcements back and a place is free. What is then owed has an entry or the due flag, with an
override on top in every case; with the base on top it may be left to an activation still to act (log 32), as to that of the
group's one entry reached, of that setting, which requests nothing. An end count reached is one at or before the mains count
(log 2). -/
def Obligations.CompletedAnnouncementIsReported : Prop :=
  ∀ (s : State) (f : Frame) (tr : Sending) (ahead behind : List Entry) (a : Ann) (x : Stamp),
    s.tx.state = .sending → s.tx.frame = some f → f.endCount ≤ s.count → s.time.state = .present →
    s.arb.holder = .announcement a.group → s.disp.sending = some tr → tr.group = a.group →
    s.disp.queue = ahead ++ .ann a :: behind → (∀ e ∈ ahead ++ behind, isAnnOf a.group e = false) → a.started = true →
    a.repeats = 0 → a.stamp = some x → (s.group a.group).due = false →
    ∃ t, exec .frameWholeEnd s = .next t
      ∧ (∀ e ∈ t.disp.queue, isInFlight a.group e = false)
      ∧ (∀ b, Entry.ann b ∈ ahead ++ behind → (s.group b.group).due = false → Entry.ann b ∈ t.disp.queue)
      ∧ WaitsSettled s t
      ∧ (Owed a.group t → Met a.group t
          ∨ (∃ b, (s.group a.group).holding = .active b []) ∧ (∃ y ∈ s.schedule, y.group = a.group ∧ y.activation ≤ s.count)
            ∧ LeftToEvents a.group t)
      ∧ (a.activation = none → (t.group a.group).stated = some { setting := a.content, stamp := x }
          ∧ ((∀ n, (s.group a.group).next = some n → s.count < n.activation) →
              (t.group a.group).next = (s.group a.group).next)
          ∧ ∀ n, (s.group a.group).next = some n → n.activation ≤ s.count → (t.group a.group).next = none)
      ∧ (∀ v, a.activation = some v → v ≤ tr.endCount →
          (t.group a.group).stated = some { setting := a.content, stamp := x } ∧ (t.group a.group).next = none
          ∧ ∀ n, (s.group a.group).next = some n → s.count < n.activation →
              ∀ e ∈ t.schedule, e.group = a.group → e.activation = n.activation → e.mark ≠ .completed)
      ∧ (∀ v, a.activation = some v → tr.endCount < v →
          (∀ e ∈ s.schedule, e.group = a.group → e.activation = v → e.mark = .queued →
              { e with mark := .completed } ∈ t.schedule)
          ∧ (s.count < v → (t.group a.group).next = some { setting := a.content, stamp := x, activation := v }
            ∧ ((∀ n, (s.group a.group).next = some n → s.count < n.activation) →
                (t.group a.group).stated = (s.group a.group).stated)
            ∧ ∀ n, (s.group a.group).next = some n → n.activation ≤ s.count →
                (t.group a.group).stated = some { setting := n.setting, stamp := n.stamp })
          ∧ (v ≤ s.count → (t.group a.group).next = none
            ∧ (t.group a.group).stated = some { setting := a.content, stamp := x }))
      ∧ (∀ b e, (a.activation = none ∨ ∃ v, a.activation = some v ∧ v ≤ tr.endCount) →
          (s.group a.group).holding = .active b [] → b.setting = a.content → (s.group a.group).next = none →
          e ∈ s.schedule → e.group = a.group → e.mark = .none →
          (∀ y ∈ s.schedule, y.group = a.group → y ≠ e → e.activation < y.activation) → s.count < e.activation →
          e.activation ≤ s.count + min s.conf.leadWindow 65535 + announceSlots s.conf.broadcastGrade → s.heldBack = false →
          (ahead ++ behind).length < 16 →
          { e with mark := .queued } ∈ t.schedule
          ∧ Entry.ann
              { group := e.group, content := e.setting, activation := some e.activation, flavour := .new, stamp := none
                started := false, repeats := s.conf.defaultRepeat, done := 0, lastEnd := none, entryCount := s.count
                origin := some e.origin, late := false } ∈ t.disp.queue)
      ∧ (∀ v, a.activation = some v → v ≤ tr.endCount →
          ∀ e ∈ t.schedule, e.group = a.group → e.activation = v → v ≤ s.count → e.mark ≠ .queued)
      ∧ (∀ p, a.origin = some p →
          Told p (.announcementEnded
            { reason := if a.late = true ∨ (∃ v, a.activation = some v ∧ v ≤ tr.endCount) then .completedLate else .completed
              group := a.group, flavour := a.flavour, content := a.content, activation := a.activation, stamp := some x
              done := a.done + 1, lastEnd := some tr.endCount }) s t)
      ∧ ∀ v b before e after, a.activation = some v → v ≤ tr.endCount → (s.group a.group).holding = .active b [] →
          s.schedule = before ++ e :: after → e.group = a.group → e.activation ≤ s.count → e.setting = a.content →
          (∀ y ∈ before ++ after, y.group = a.group → s.count < y.activation) →
          (∀ q ∈ t.disp.queue, isAnnOf a.group q = false)
          ∧ ∃ u, exec (.scheduleActivation a.group) t = .next u
            ∧ (u.group a.group).holding = .active { setting := a.content, origin := .schedule } []
            ∧ (u.group a.group).stated = some { setting := a.content, stamp := x }
            ∧ ∀ q ∈ u.disp.queue, isAnnOf a.group q = false

/-- R91, R108, R115, R116, R122, R128, R139, R142, R155: a carrier heard through a coupler that the frame drives, in its first 2
slots, is a collision: the line is busy; the phase is IGNORING where it was QUIET, a carrier behind a frame whose own has ended
is kept for it (log 17), and the receive state is else as it was (log 26); the frame is abandoned and reported, and the Transmitter backs off until 1 to 8 counts after the crossing that
closes the slot; an announcement keeps its place, its stamp and its repeats, as does every announcement of a group that is not
due; a receipt keeps its place and is no longer on the line; an exchange goes to the tail of the ready order, or ends
CANCELLED where that was asked. At the backoff end, in PRESENT, the Transmitter becomes IDLE. Otherwise nothing happens. The
number of slots is a free value (log 11); the slot is the one the next crossing closes (log 26); the row is given apart from the PREAMBLE
of the same carrier (log 39); a backoff end reached is one at or before the mains count (log 2). -/
def Obligations.CollisionBacksOff : Prop :=
  (∀ (s : State) (ph : Phase),
    (∀ f, LineInv s → s.tx.state = .sending → s.tx.frame = some f → s.count < f.start + 2 →
      (f.phase = .all ∨ f.phase = .one ph) →
      ∃ t, exec (.collision ph) s = .next t
        ∧ t.arb = { holder := .none, quiet := s.arb.quiet, busy := true, claimOpen := s.arb.claimOpen }
        ∧ (s.rx.phases.get ph = .quiet → t.rx.phases = s.rx.phases.set ph .ignoring ∧ t.rx.again = s.rx.again)
        ∧ (∀ i e, s.rx.phases.get ph = .assembling i (some e) →
            t.rx.phases = s.rx.phases ∧ t.rx.again = s.rx.again.set ph true)
        ∧ ((s.rx.phases.get ph = .ignoring ∨ ∃ i, s.rx.phases.get ph = .assembling i none) →
            t.rx.phases = s.rx.phases ∧ t.rx.again = s.rx.again)
        ∧ t.rx.pool = s.rx.pool ∧ t.rx.heldOrder = s.rx.heldOrder ∧ t.rx.lost = s.rx.lost
        ∧ t.tx.frame = none ∧ t.disp.sending = none
        ∧ t.time = s.time ∧ t.conf = s.conf ∧ t.routes = s.routes
        ∧ (∀ g, (t.group g).holding = (s.group g).holding ∧ (t.group g).stampCounter = (s.group g).stampCounter)
        ∧ (s.conf.station = 0 → t.tx.state = .dormant ∧ t.tx.backoffEnd = none)
        ∧ (s.conf.station ≠ 0 → t.tx.state = .backoff
            ∧ ∃ b, 1 ≤ b ∧ b ≤ 8 ∧ t.tx.backoffEnd = some (s.count + 1 + b))
        ∧ (∀ g, s.arb.holder = .announcement g → MovesInv s → t.disp.queue = s.disp.queue ∧ t.groups = s.groups)
        ∧ (∀ a, Entry.ann a ∈ s.disp.queue → (s.group a.group).due = false → Entry.ann a ∈ t.disp.queue)
        ∧ (∀ before x after, s.arb.holder = .exchange x.tag → s.exch.table = before ++ x :: after →
            (∀ y ∈ before ++ after, y.tag ≠ x.tag) → x.cancelPending = false →
            { x with state := .ready } ∈ t.exch.table
            ∧ (∃ moved, t.exch.ready = s.exch.ready ++ x.tag :: moved)
            ∧ (MovesInv s → t.exch = { table := before ++ { x with state := .ready } :: after, tagCounter := s.exch.tagCounter
                                       ready := s.exch.ready ++ [x.tag] }))
        ∧ (∀ before x after, s.arb.holder = .exchange x.tag → s.exch.table = before ++ x :: after →
            (∀ y ∈ before ++ after, y.tag ≠ x.tag) → x.cancelPending = true →
            (∀ y ∈ before ++ after, y ∈ t.exch.table)
            ∧ (∀ y ∈ t.exch.table, y.tag = x.tag → y.state = .ready ∧ y.attempts = 0)
            ∧ ((∀ e ∈ s.disp.queue, isWork e = false) → t.exch =
              { table := before ++ after, tagCounter := s.exch.tagCounter, ready := s.exch.ready.filter (· ≠ x.tag) })
            ∧ Told x.port (.orderEnded
                { reference := x.reference, unit := x.unit, kind := x.kind, ending := .cancelled, tag := some x.tag
                  attempts := x.attempts, lastGrade := x.attempt.map (·.grade), retries := some x.retries
                  defers := some x.defers, reply := none, comparison := none }) s t)
        ∧ (∀ u n, s.arb.holder = .receipt u n →
            t.rx.receipts = s.rx.receipts.map fun r => if r.unit = u ∧ r.number = n then { r with onLine := false } else r))
    ∧ ((s.tx.state ≠ .sending ∨ ∀ f, s.tx.frame = some f → f.start + 2 ≤ s.count ∨ ∃ q, f.phase = .one q ∧ q ≠ ph) →
      exec (.collision ph) s = .next s))
  ∧ ∀ (s : State) (b : Count), s.tx.state = .backoff → s.tx.backoffEnd = some b →
    (b ≤ s.count → s.time.state = .present →
      exec .backoffEnd s = .next (s.setTx { s.tx with state := .idle, backoffEnd := none }))
    ∧ ((s.count < b ∨ s.time.state ≠ .present) → exec .backoffEnd s = .next s)

/-! ## Crossings (R41 to R50, R108, R113, R117) -/

/-- R31, R42 to R50, R108, R113: an edge nearer than half a period to the reference point is noise after a counted or a realigning
crossing, which changes nothing; after a synthetic one it moves the reference point and the due time, and counts nothing. An
edge at half a period or more from the reference point, or with none, is counted: the count advances by one; a spacing from a
real crossing within 0.75 E to 1.25 E enters the history in place of the oldest; in STARTING and LOST it lengthens the run,
which at 3 makes the state PRESENT and tells both ports; in PRESENT and in LOST the due time is 1.5 E after it. In PRESENT a
Transmitter that is not DORMANT goes on as it is. The quiet slot is judged, with line activity kept for whole slots (log 16):
the slot that begins is busy where the part's own carrier is still sent or a carrier is heard; the claims are open, to be
judged at the CLAIM row (log 10). The earliest entry of a group that R32 admits, its mark NONE and its reach opened at an
earlier crossing (log 8), is pre-announced where places are free for all, at the first crossing after a line reset as at any.
MAINS CHANGE comes behind what the blocks handed the crossing queue in this row (log 23).
Instants are half microseconds (log 6); the due time is first set on entering PRESENT (log 29). -/
def Obligations.RealCrossingIsJudged : Prop :=
  (∀ (x : Nat) (s : State) (r : Instant) (k : RefKind), s.time.reference = some (r, k) → 2 * x - r < s.time.period →
    (k ≠ .synthetic → exec (.realCrossing x) s = .next s)
    ∧ (k = .synthetic → exec (.realCrossing x) s = .next (s.setTime
        { s.time with reference := some (2 * x, .realigning), due := some (2 * x + 3 * s.time.period) })))
  ∧ ∀ (x : Nat) (s : State),
    (∀ r k, s.time.reference = some (r, k) → s.time.period ≤ 2 * x - r) →
    ∃ t, exec (.realCrossing x) s = .next t
      ∧ t.count = s.count + 1 ∧ t.time.reference = some (2 * x, .counted) ∧ t.time.lastCounted = some (2 * x, .real)
      ∧ (∀ y, s.time.lastCounted = some (y, .real) →
          ((3 * s.time.period ≤ 4 * ((2 * x - y) / 2) ∧ 4 * ((2 * x - y) / 2) ≤ 5 * s.time.period) →
            t.time.history = s.time.history.drop 1 ++ [(2 * x - y) / 2]
            ∧ (s.time.state ≠ .present → s.time.run < 2 → t.time.run = s.time.run + 1 ∧ t.time.state = s.time.state)
            ∧ (s.time.state ≠ .present → 2 ≤ s.time.run → t.time.run = 0 ∧ t.time.state = .present
                ∧ ∀ p, ToldLast p (.mainsChange s.time.state .present (s.count + 1)) s t
                    ∧ (MovesInv s → Told p (.mainsChange s.time.state .present (s.count + 1)) (s.setTime t.time) t)))
          ∧ (¬ (3 * s.time.period ≤ 4 * ((2 * x - y) / 2) ∧ 4 * ((2 * x - y) / 2) ≤ 5 * s.time.period) →
            t.time.history = s.time.history ∧ t.time.state = s.time.state ∧ t.time.run = 0))
      ∧ ((∀ y, s.time.lastCounted ≠ some (y, .real)) → s.time.run < 3 →
          t.time.history = s.time.history ∧ t.time.state = s.time.state)
      ∧ (s.time.state = .present → t.time.state = .present ∧ t.time.due = some (2 * x + 3 * t.time.period))
      ∧ (t.time.state ≠ .starting → t.time.due = some (2 * x + 3 * t.time.period)) ∧ (t.time.state = .starting → t.time.due = none)
      ∧ t.arb.quiet = !s.arb.busy ∧ t.arb.claimOpen = true ∧ t.heldBack = false
      ∧ (t.arb.busy = true ↔ carrierHeard s = true
          ∨ t.time.state = .present ∧ s.tx.state = .sending ∧ ∃ f, s.tx.frame = some f ∧ s.count + 1 < f.endCount)
      ∧ (MovesInv s → t.time.state = .present → s.tx.state ≠ .dormant → t.tx = s.tx)
      ∧ (LineInv s → t.time.state ≠ .present → t.tx.state = .dormant ∧ t.tx.frame = none ∧ t.tx.backoffEnd = none)
      ∧ (t.time.state = .present → s.tx.state = .dormant → s.conf.station ≠ 0 → t.tx.state = .idle)
      ∧ CrossingPreAnnounces s t
      ∧ t.routes = s.routes ∧ t.conf = s.conf
      ∧ ∀ g, (t.group g).holding = (s.group g).holding ∧ (t.group g).stampCounter = (s.group g).stampCounter

/-- R31, R45, R46, R49, R91, R108, R113, R117, R128, R139, R142, R155: at the synthetic due time the count advances by one,
the state is LOST, the next due time is E later, the history is kept, and both ports are told when the state was another,
behind what the blocks handed the crossing queue in this row (log 23); a frame on the line is abandoned with no backoff and
the Transmitter is DORMANT: an announcement keeps its place, its stamp and its repeats, a receipt its place, and an exchange
goes to the tail of the ready order, in this very row (log 38), or ends CANCELLED where that was asked. With the due time
absent nothing happens. The quiet slot is judged, with line activity kept for whole slots (log 16): the slot that begins is busy where a carrier is heard;
the claims are open, to be judged at the CLAIM row (log 10). The earliest entry of a group that R32 admits, its mark NONE and
its reach opened at an earlier crossing (log 8), is pre-announced where places are free for all, at the first crossing after a
line reset as at any. -/
def Obligations.SyntheticCrossingLosesTheLine : Prop :=
  (∀ s : State, s.time.due = none → exec .syntheticCrossing s = .next s)
  ∧ ∀ (s : State) (d : Instant), s.time.due = some d →
    ∃ t, exec .syntheticCrossing s = .next t
      ∧ t.time = { count := s.count + 1, state := .lost, history := s.time.history, reference := some (d, .synthetic)
                   lastCounted := some (d, .synthetic), run := 0, due := some (d + 2 * s.time.period) }
      ∧ (s.time.state ≠ .lost → ∀ p, ToldLast p (.mainsChange s.time.state .lost (s.count + 1)) s t
          ∧ (MovesInv s → s.tx.state ≠ .sending →
              Told p (.mainsChange s.time.state .lost (s.count + 1)) (s.setTime t.time) t))
      ∧ (LineInv s → t.tx = { state := .dormant, frame := none, backoffEnd := none } ∧ t.arb.holder = .none
          ∧ t.disp.sending = none)
      ∧ (s.tx.state = .sending →
        (∀ before x after, s.arb.holder = .exchange x.tag → s.exch.table = before ++ x :: after →
            (∀ y ∈ before ++ after, y.tag ≠ x.tag) → x.cancelPending = false →
            { x with state := .ready } ∈ t.exch.table
            ∧ (∃ moved, t.exch.ready = s.exch.ready ++ x.tag :: moved)
            ∧ (MovesInv s → t.exch = { table := before ++ { x with state := .ready } :: after, tagCounter := s.exch.tagCounter
                                       ready := s.exch.ready ++ [x.tag] }))
        ∧ (∀ before x after, s.arb.holder = .exchange x.tag → s.exch.table = before ++ x :: after →
            (∀ y ∈ before ++ after, y.tag ≠ x.tag) → x.cancelPending = true →
            (∀ y ∈ before ++ after, y ∈ t.exch.table)
            ∧ (∀ y ∈ t.exch.table, y.tag = x.tag → y.state = .ready ∧ y.attempts = 0)
            ∧ ((∀ e ∈ s.disp.queue, isWork e = false) → t.exch =
              { table := before ++ after, tagCounter := s.exch.tagCounter, ready := s.exch.ready.filter (· ≠ x.tag) })
            ∧ ((t.port x.port).shedding = false → { count := s.count + 1, body := (.orderEnded
                { reference := x.reference, unit := x.unit, kind := x.kind, ending := .cancelled, tag := some x.tag
                  attempts := x.attempts, lastGrade := x.attempt.map (·.grade), retries := some x.retries
                  defers := some x.defers, reply := none, comparison := none }) } ∈ (t.port x.port).notices))
        ∧ (∀ u n, s.arb.holder = .receipt u n →
            t.rx.receipts = s.rx.receipts.map fun r => if r.unit = u ∧ r.number = n then { r with onLine := false } else r)
        ∧ ∀ g, s.arb.holder = .announcement g → MovesInv s →
            (∃ entered, t.disp.queue = s.disp.queue ++ entered) ∧ t.groups = s.groups)
      ∧ (∀ a, Entry.ann a ∈ s.disp.queue → (s.group a.group).due = false → Entry.ann a ∈ t.disp.queue)
      ∧ CrossingPreAnnounces s t
      ∧ t.arb.quiet = !s.arb.busy ∧ t.arb.busy = carrierHeard s ∧ t.arb.claimOpen = true ∧ t.heldBack = false
      ∧ t.routes = s.routes ∧ t.conf = s.conf
      ∧ ∀ g, (t.group g).holding = (s.group g).holding ∧ (t.group g).stampCounter = (s.group g).stampCounter

/-! ## Reception (R120 to R133) -/

/-- R108, R121 to R125: on a QUIET phase a preamble makes the line busy; while the part's own carrier is present, or with no
FREE buffer, the phase is IGNORING, and in the second case the report port is told once until a buffer is FREE; otherwise the
lowest FREE buffer assembles the frame. A body byte joins its frame, or abandons it at the tests of R124. The end of the
carrier makes an IGNORING phase QUIET, and sets the completion count of a frame to the next crossing. On a phase in another
state none of them does anything, but that a carrier behind a frame that has not completed makes the line busy and is kept,
until it ends, with its frame not received (log 17). Line activity is kept for whole slots (log 16). That a
carrier whose preamble is detected in the first 2 slots of the part's own frame collides with it is the COLLISION row's to say,
not this one's (log 39). -/
def Obligations.FramesAreAssembled : Prop :=
  (∀ (ph : Phase) (grade : Grade) (s : State),
    ((s.rx.phases.get ph = .ignoring ∨ (∃ i, s.rx.phases.get ph = .assembling i none)) →
      exec (.preamble ph grade) s = .next s)
    ∧ (∀ i e, s.rx.phases.get ph = .assembling i (some e) →
      exec (.preamble ph grade) s = .next ((s.setArb { s.arb with busy := true }).setRx
        { s.rx with again := s.rx.again.set ph true }))
    ∧ (s.rx.phases.get ph = .quiet → ∀ f, s.tx.state = .sending → s.tx.frame = some f → s.count < f.endCount →
      exec (.preamble ph grade) s = .next ((s.setArb { s.arb with busy := true }).setRx
        { s.rx with phases := s.rx.phases.set ph .ignoring }))
    ∧ (s.rx.phases.get ph = .quiet →
      (s.tx.state = .sending → ∀ f, s.tx.frame = some f → f.endCount ≤ s.count) →
      (∀ i, s.rx.pool.get i = .free → (∀ j < i, s.rx.pool.get j ≠ .free) →
        exec (.preamble ph grade) s = .next ((s.setArb { s.arb with busy := true }).setRx
          { s.rx with
            pool := s.rx.pool.set i (.assembling
              { bytes := [], phase := ph, grade := grade, maxBody := s.conf.maxBody, station := s.conf.station })
            phases := s.rx.phases.set ph (.assembling i none) }))
      ∧ ((∀ i, s.rx.pool.get i ≠ .free) →
        ∃ t, exec (.preamble ph grade) s = .next t
          ∧ t.rx = { s.rx with phases := s.rx.phases.set ph .ignoring, lost := true }
          ∧ t.arb = { s.arb with busy := true } ∧ t.tx = s.tx ∧ t.disp = s.disp ∧ t.exch = s.exch ∧ t.groups = s.groups
          ∧ (s.rx.lost = true → t.ports = s.ports)
          ∧ (s.rx.lost = false → Told s.conf.reportPort (.receiveLost ph s.count) s t))))
  ∧ (∀ (ph : Phase) (b : Byte) (s : State),
    (∀ i f, s.rx.phases.get ph = .assembling i none → s.rx.pool.get i = .assembling f →
      (f.bytes.length = 0 ∧ b ≠ 3 ∧ b ≠ 4
          ∨ f.bytes.length = 3 ∧ (f.station = 0 ∨ destOf (f.bytes ++ [b]) ≠ f.station)
          ∨ f.bytes.length = 7 ∧ b.toNat / 4 % 4 ≠ b.toNat / 16 % 4
          ∨ f.maxBody ≤ f.bytes.length →
        exec (.bodyByte ph b) s = .next (s.setRx
          { s.rx with pool := s.rx.pool.set i .free, lost := false, phases := s.rx.phases.set ph .ignoring }))
      ∧ (¬ (f.bytes.length = 0 ∧ b ≠ 3 ∧ b ≠ 4
          ∨ f.bytes.length = 3 ∧ (f.station = 0 ∨ destOf (f.bytes ++ [b]) ≠ f.station)
          ∨ f.bytes.length = 7 ∧ b.toNat / 4 % 4 ≠ b.toNat / 16 % 4
          ∨ f.maxBody ≤ f.bytes.length) →
        exec (.bodyByte ph b) s = .next (s.setRx
          { s.rx with pool := s.rx.pool.set i (.assembling { f with bytes := f.bytes ++ [b] }) })))
    ∧ ((∀ i, s.rx.phases.get ph ≠ .assembling i none) → exec (.bodyByte ph b) s = .next s))
  ∧ ∀ (ph : Phase) (s : State),
    (s.rx.phases.get ph = .ignoring →
      exec (.carrierEnd ph) s = .next (s.setRx { s.rx with phases := s.rx.phases.set ph .quiet }))
    ∧ (∀ i, s.rx.phases.get ph = .assembling i none →
      exec (.carrierEnd ph) s = .next (s.setRx
        { s.rx with phases := s.rx.phases.set ph (.assembling i (some (s.count + 1))) }))
    ∧ (∀ i e, s.rx.phases.get ph = .assembling i (some e) →
      exec (.carrierEnd ph) s = .next (s.setRx { s.rx with again := s.rx.again.set ph false }))
    ∧ (s.rx.phases.get ph = .quiet → exec (.carrierEnd ph) s = .next s)

/-- R102, R125 to R132: a body fits its kind with a position index of at most its relay count and a payload of 8 bytes for an
ANNOUNCE; of 2 for an ORDER frame of kind QUERY or TEST and 3 for ASSIGN; of 2 for an ANSWER of any outcome, or 8 for an ACCEPT;
of 3 for a CATCH-UP REPORT and 3 to 18 for an EVENT REPORT; of 1 for a RECEIPT. At its completion count a frame leaves its phase QUIET, or IGNORING where another carrier is heard behind it
(log 17), also where it fails (log 18). One that fails the frame check, does not fit its kind or names a unit that cannot be
addressed is dropped, as is a copy of one accepted at this crossing. An accepted ANSWER goes to its exchange with source, tag,
outcome, the fields of its form, grade and completion count; a CATCH-UP report gives a receipt and asks its group for a
catch-up; an EVENT report with a buffer to spare and a receipt to queue is held and told to the report port, and is else
discarded; each teaches its route. Before the completion count nothing happens. Accepted bodies are remembered until the next
crossing (log 19); a completion count reached is one at or before the mains count (log 2). -/
def Obligations.CompletedFramesAreHandedOn : Prop :=
  (∀ (b : List Byte) (h : Nat), h = (byteAt b 7).toNat / 16 % 4 →
    (b.length < 10 + 3 * h → bodyFits b = false)
    ∧ ∀ (l : Nat) (form : Byte), b.length = 10 + 3 * h + l → form = byteAt b (8 + 3 * h + 1) →
      (bodyFits b = true ↔ (byteAt b 7).toNat / 4 % 4 ≤ h
        ∧ (byteAt b 0 = 1 ∧ l = 8
          ∨ byteAt b 0 = 2 ∧ (l = 2 ∧ (form = 2 ∨ form = 3) ∨ l = 3 ∧ form = 1)
          ∨ byteAt b 0 = 3 ∧ (l = 2 ∧ (form = 1 ∨ form = 2 ∨ form = 3) ∨ l = 8 ∧ form = 1)
          ∨ byteAt b 0 = 4 ∧ (l = 3 ∧ form = 1 ∨ 3 ≤ l ∧ l ≤ 18 ∧ form = 2)
          ∨ byteAt b 0 = 5 ∧ l = 1)))
  ∧ ∀ (ph : Phase) (s : State),
    ((∀ i e, s.rx.phases.get ph = .assembling i (some e) → s.count < e) → exec (.frameCompletion ph) s = .next s)
    ∧ ∀ (i : Fin 4) (e : Count) (f : Assembly) (left : PhaseState),
      left = (if s.rx.again.get ph then .ignoring else .quiet) →
      s.rx.phases.get ph = .assembling i (some e) → e ≤ s.count → s.rx.pool.get i = .assembling f →
      (frameCheck f.bytes ≠ 0 ∨ bodyFits f.bytes = false
          ∨ (∃ u ∈ sourceOf f.bytes :: pathOf f.bytes, u = 0 ∨ 16777214 < u) ∨ f.bytes ∈ s.rx.accepted →
        exec (.frameCompletion ph) s = .next (s.setRx
          { s.rx with phases := s.rx.phases.set ph left, again := s.rx.again.set ph false, pool := s.rx.pool.set i .free, lost := false }))
      ∧ (frameCheck f.bytes = 0 → bodyFits f.bytes = true →
        (∀ u ∈ sourceOf f.bytes :: pathOf f.bytes, 1 ≤ u ∧ u ≤ 16777214) → f.bytes ∉ s.rx.accepted →
        ∀ (pl : List Byte) (cand : Route) (fresh : Bool), pl = payloadOf f.bytes →
        cand = { unit := sourceOf f.bytes, path := (pathOf f.bytes).reverse, phase := f.phase, grade := f.grade
                 pinned := false, written := e } →
        (fresh = true ↔ ∀ r ∈ s.rx.receipts, ¬ (r.unit = sourceOf f.bytes ∧ r.number = byteAt pl 0)) →
        (byteAt f.bytes 0 = 3 →
          exec (.frameCompletion ph) s = .next (closeAsked (takeAnswer
            { source := sourceOf f.bytes, tag := byteAt pl 0, outcome := (byteAt pl 1).toNat
              reply := if pl.length = 8 then some
                { group := (byteAt pl 2).toNat, setting := settingOf (byteAt pl 3) (byteAt pl 4) (byteAt pl 5)
                  stamp := BitVec.ofNat 16 (256 * (byteAt pl 6).toNat + (byteAt pl 7).toNat) } else none
              grade := f.grade, count := e }
            ((s.setRx { s.rx with
                phases := s.rx.phases.set ph left, again := s.rx.again.set ph false, pool := s.rx.pool.set i .free, lost := false
                accepted := f.bytes :: s.rx.accepted }).setRoutes (learn cand s.routes)))))
        ∧ (byteAt f.bytes 0 = 4 → byteAt pl 1 = 1 →
          ∃ t, exec (.frameCompletion ph) s = .next t ∧ t.routes = learn cand s.routes
            ∧ t.rx = { s.rx with
                phases := s.rx.phases.set ph left, again := s.rx.again.set ph false, pool := s.rx.pool.set i .free, lost := false
                accepted := f.bytes :: s.rx.accepted
                receipts := if fresh = true ∧ s.rx.receipts.length < 4 then s.rx.receipts
                  ++ [{ unit := sourceOf f.bytes, number := byteAt pl 0, path := cand.path, grade := f.grade, onLine := false }]
                  else s.rx.receipts }
            ∧ (∀ g st, groupOf (byteAt pl 2) = some g → isActive (s.group g).holding = true → (s.group g).due = false →
                (s.group g).next = none → (s.group g).stated = some st → (∀ q ∈ s.disp.queue, isAnnOf g q = false) →
                s.disp.queue.length < 16 →
                Entry.ann { group := g, content := st.setting, activation := none, flavour := .catchUp
                            stamp := some st.stamp, started := false, repeats := 0, done := 0, lastEnd := none
                            entryCount := s.count, origin := none, late := false } ∈ t.disp.queue)
            ∧ (64 ≤ (byteAt pl 2).toNat → t.disp = s.disp ∧ t.groups = s.groups ∧ t.exch = s.exch))
        ∧ (byteAt f.bytes 0 = 4 → byteAt pl 1 = 2 → ((∃ j, s.rx.pool.get j = .free) ∧ s.rx.receipts.length < 4 ∧ fresh = true) →
          ∃ t, exec (.frameCompletion ph) s = .next t ∧ t.routes = learn cand s.routes
            ∧ t.rx = { s.rx with
                phases := s.rx.phases.set ph left, again := s.rx.again.set ph false, accepted := f.bytes :: s.rx.accepted
                pool := s.rx.pool.set i (.held
                  { source := sourceOf f.bytes, number := byteAt pl 0, data := pl.drop 2, path := pathOf f.bytes
                    phase := f.phase, grade := f.grade, count := e })
                heldOrder := s.rx.heldOrder ++ [i]
                receipts := s.rx.receipts
                  ++ [{ unit := sourceOf f.bytes, number := byteAt pl 0, path := cand.path, grade := f.grade, onLine := false }] }
            ∧ Told s.conf.reportPort
                (.reportWaiting (sourceOf f.bytes) (byteAt pl 0) (s.rx.heldOrder.length + 1)) s t
            ∧ t.disp = s.disp ∧ t.groups = s.groups ∧ t.exch = s.exch)
        ∧ (byteAt f.bytes 0 = 4 → byteAt pl 1 = 2 → ¬ ((∃ j, s.rx.pool.get j = .free) ∧ s.rx.receipts.length < 4 ∧ fresh = true) →
          exec (.frameCompletion ph) s = .next ((s.setRx { s.rx with
            phases := s.rx.phases.set ph left, again := s.rx.again.set ph false, pool := s.rx.pool.set i .free, lost := false
            accepted := f.bytes :: s.rx.accepted }).setRoutes (learn cand s.routes))))

/-- R130, R133: RTAKE through the report port returns the oldest held report, frees its buffer and clears the lost mark; with
none held the outcome is NOT FOUND; through the other port it is refused with WRONG PORT. In the last two cases nothing else
changes. -/
def Obligations.RtakeTakesTheOldestReport : Prop :=
  ∀ (p : Port) (s : State), PortIdle p s →
    (p ≠ s.conf.reportPort → exec (.rtake p []) s = .next (answer p .rtake .wrongPort none .empty id s))
    ∧ (p = s.conf.reportPort → s.rx.heldOrder = [] →
      exec (.rtake p []) s = .next (answer p .rtake .notFound none .empty id s))
    ∧ (∀ i rest r, p = s.conf.reportPort → s.rx.heldOrder = i :: rest → i ∉ rest → s.rx.pool.get i = .held r →
      exec (.rtake p []) s = .next (answer p .rtake .done none (.report r rest.length) id
        (s.setRx { s.rx with pool := s.rx.pool.set i .free, heldOrder := rest, lost := false })))

/-! ## Routes (R160 to R169) -/

/-- R162 to R164, R166: a route taught by a frame, and one pinned by RPIN, go to the unit's own place, else to the lowest
empty place, else to the victim's. Learning leaves a pinned entry and the last-used index as they stand, and is without effect
where there is no place; RPIN overwrites, moves the last-used index, returns the place, and is answered FULL where there is
none. -/
def Obligations.RoutesGoToTheirPlace : Prop :=
  (∀ (cand : Route) (c : RouteCache), RouteInv c →
    (∀ i, GoesTo cand.unit c i → (∀ r, c.places.get i = some r → r.pinned = false) →
      learn cand c = { places := c.places.set i (some cand), lastUsed := c.lastUsed })
    ∧ ((∃ i r, c.places.get i = some r ∧ r.unit = cand.unit ∧ r.pinned = true) → learn cand c = c)
    ∧ (FindsNoPlace cand.unit c → learn cand c = c))
  ∧ ∀ (p : Port) (fields : List Byte) (f : PinFields) (s : State), PortIdle p s → RouteInv s.routes →
    readRpin fields = some f →
    (∀ i, GoesTo f.unit s.routes i →
      exec (.rpin p fields) s = .next (answer p .rpin .done none (.place i) id (s.setRoutes
        { places := s.routes.places.set i (some
            { unit := f.unit, path := f.path, phase := f.phase, grade := f.grade, pinned := true, written := s.count })
          lastUsed := some i })))
    ∧ (FindsNoPlace f.unit s.routes → exec (.rpin p fields) s = .next (answer p .rpin .full none .empty id s))

/-- R167, R168: RFREE clears the pinned mark of the unit's entry and changes nothing else of the cache, or is answered NOT
FOUND; RFLSH removes every unpinned entry, keeps the pinned ones in their places, makes the last-used index none where its
place was emptied, and returns how many went and how many stay. -/
def Obligations.RoutesAreFreedAndFlushed : Prop :=
  (∀ (p : Port) (a b c : Byte) (s : State), PortIdle p s → RouteInv s.routes →
    (∀ i r, s.routes.places.get i = some r → r.unit = 65536 * a.toNat + 256 * b.toNat + c.toNat →
      exec (.rfree p [a, b, c]) s = .next (answer p .rfree .done none .empty id (s.setRoutes
        { s.routes with places := s.routes.places.set i (some { r with pinned := false }) })))
    ∧ (Unrouted (65536 * a.toNat + 256 * b.toNat + c.toNat) s.routes →
      exec (.rfree p [a, b, c]) s = .next (answer p .rfree .notFound none .empty id s)))
  ∧ ∀ (p : Port) (s : State), PortIdle p s →
    ∃ t gone kept, exec (.rflsh p []) s = .next (answer p .rflsh .done none (.flushed gone kept) id (s.setRoutes t))
      ∧ (∀ i, t.places.get i = match s.routes.places.get i with
          | some r => if r.pinned then some r else none
          | none => none)
      ∧ (∀ k, t.lastUsed = some k ↔ s.routes.lastUsed = some k ∧ ∀ r, s.routes.places.get k = some r → r.pinned = true)
      ∧ kept = (List.finRange 64).countP (fun i => (t.places.get i).isSome)
      ∧ gone + kept = (List.finRange 64).countP (fun i => (s.routes.places.get i).isSome)

/-! ## Ports (R53, R39, R169, R177 to R186) -/

/-- R39, R53, R169, R186: SREAD, TIME, RREAD and CREAD return what the part holds and change nothing else; with a field too
few or too many they are refused with MALFORMED. -/
def Obligations.ReadsReturnWhatIsHeld : Prop :=
  ∀ (p : Port) (s : State), PortIdle p s →
    (∀ start : Byte, ∃ es, exec (.sread p [start]) s
        = .next (answer p .sread .done none (.schedule s.schedule.length es) id s)
      ∧ ∀ k, es[k]? = if k < 5 then (s.schedule[start.toNat + k]?).map (fun e => (start.toNat + k, e)) else none)
    ∧ exec (.time p []) s = .next (answer p .time .done none (.time s.count s.time.state (s.time.history.sum / 8)) id s)
    ∧ exec (.cread p []) s = .next (answer p .cread .done none (.params s.conf) id s)
    ∧ (∀ (a b c : Byte) (held pinned : Nat),
      held = (List.finRange 64).countP (fun i => (s.routes.places.get i).isSome) →
      pinned = (List.finRange 64).countP (fun i => (s.routes.places.get i).any (·.pinned)) →
      (∀ i r, s.routes.places.get i = some r → r.unit = 65536 * a.toNat + 256 * b.toNat + c.toNat →
        (∀ j < i, ∀ q, s.routes.places.get j = some q → q.unit ≠ r.unit) →
        exec (.rread p [a, b, c]) s = .next (answer p .rread .done none
          (.route (some { place := i, route := r, lastUsed := s.routes.lastUsed == some i }) held pinned) id s))
      ∧ (Unrouted (65536 * a.toNat + 256 * b.toNat + c.toNat) s.routes →
        exec (.rread p [a, b, c]) s = .next (answer p .rread .notFound none (.route none held pinned) id s)))
    ∧ ∀ fields : List Byte,
      (fields.length ≠ 1 → exec (.sread p fields) s = .next (answer p .sread .malformed none .empty id s))
      ∧ (fields ≠ [] → exec (.time p fields) s = .next (answer p .time .malformed none .empty id s)
          ∧ exec (.cread p fields) s = .next (answer p .cread .malformed none .empty id s))
      ∧ (fields.length ≠ 3 → exec (.rread p fields) s = .next (answer p .rread .malformed none .empty id s))

/-- R178, R179, R180: CMASK sets the port's condition mask to the four values given; SNAP returns mask, summary, record and
overrun marker as they stand and, with its option, masks every condition afterwards; CCLR clears the summary and the record.
Each is answered DONE and changes nothing else; a CMASK with a field missing or of another value is refused with MALFORMED. -/
def Obligations.ConditionRequestsActOnTheirPort : Prop :=
  ∀ (p : Port) (s : State), PortIdle p s →
    (∀ m : CondSet, exec (.cmask p (encConds m)) s = .next (answer p .cmask .done none .empty (fun c => { c with mask := m }) s))
    ∧ (∀ fields, (∀ m : CondSet, fields ≠ encConds m) →
      exec (.cmask p fields) s = .next (answer p .cmask .malformed none .empty id s))
    ∧ exec (.snap p [0]) s = .next (answer p .snap .done none
        (.conditions (s.port p).mask (s.port p).summary (s.port p).record (s.port p).overrun) id s)
    ∧ exec (.snap p [1]) s = .next (answer p .snap .done none
        (.conditions (s.port p).mask (s.port p).summary (s.port p).record (s.port p).overrun)
        (fun c => { c with mask := { range := true, overflow := true, underflow := true, past := true } }) s)
    ∧ exec (.cclr p []) s = .next (answer p .cclr .done none .empty
        (fun c => { c with summary := { range := false, overflow := false, underflow := false, past := false }, record := none }) s)

/-- R181, R182, R183: a notice joins the tail below 15 held; with 15 held an OVERFLOW notice takes its place and shedding
begins; while shedding it is counted in that notice. NFETCH removes and returns the oldest with the number remaining, and ends
shedding below 15; NMASK sets the notice mask. The attention line shows whether a notice of an unmasked kind is held. -/
def Obligations.NoticesAreQueuedAndFetched : Prop :=
  (∀ (p : Port) (b : NoticeBody) (s : State),
    ((s.port p).shedding = false → (s.port p).notices.length < 15 →
      notify p b s = updPort p (fun c =>
        { c with
          notices := c.notices ++ [{ count := s.count, body := b }]
          attention := c.notices.any (fun n => !inKinds n.body.kind c.noticeMask) || !inKinds b.kind c.noticeMask }) s)
    ∧ ((s.port p).shedding = false → 15 ≤ (s.port p).notices.length →
      ((notify p b s).port p).shedding = true
        ∧ ((notify p b s).port p).notices
          = (s.port p).notices ++ [{ count := s.count, body := .overflow 1 (kindBit b.kind) s.count }])
    ∧ (∀ front n d lost last, (s.port p).shedding = true → (s.port p).notices = front ++ [n] →
      n.body = .overflow d lost last →
      ((notify p b s).port p).shedding = true
        ∧ ((notify p b s).port p).notices
          = front ++ [{ n with body := .overflow (min 65535 (d + 1)) (lost ||| kindBit b.kind) s.count }]))
  ∧ ∀ (p : Port) (s : State), PortIdle p s →
    (∀ n ns, (s.port p).notices = n :: ns →
      exec (.nfetch p []) s = .next (answer p .nfetch .done none (.notice (some n) ns.length)
        (fun c =>
          { c with
            notices := ns, shedding := c.shedding && decide (15 ≤ ns.length)
            attention := ns.any fun x => !inKinds x.body.kind c.noticeMask }) s))
    ∧ ((s.port p).notices = [] →
      exec (.nfetch p []) s = .next (answer p .nfetch .notFound none (.notice none 0) id s))
    ∧ ∀ (fields : List Byte) (m : NoticeSet), fields.length = 11 →
      (∀ k : Fin 11, fields[k.val]? = some (if m.getLsbD k.val then 1 else 0)) →
      exec (.nmask p fields) s = .next (answer p .nmask .done none .empty
        (fun c =>
          { c with noticeMask := m, attention := c.notices.any fun x => !inKinds x.body.kind m }) s)

/-- R113, R132, R134, R185: CONF sets every parameter it names to its value, held within its range, and leaves the others; the
outcome is ADJUSTED when a value was out of range, else DONE; the other port is told each change; a new report port is told of
held reports; a Transmitter with no frame becomes DORMANT with the station unit number 0, and leaves DORMANT for IDLE in
PRESENT with another, when the claims of the latest crossing are closed (R109); between two numbers other than 0 its state
does not change. REPORT WAITING comes before CONFIG CHANGED where both go to one port (log 23). -/
def Obligations.ConfSetsTheParameters : Prop :=
  ∀ (p : Port) (fields : List Byte) (ns : List (ParamId × Nat)) (s : State), PortIdle p s → readConf fields = some ns →
    ∃ t o, exec (.conf p fields) s = .next t ∧ Answered p .conf o none .empty t
      ∧ (∀ q, (∀ v, (q, v) ∉ ns) → t.conf.value q = s.conf.value q)
      ∧ (∀ q v lo hi, (q, v) ∈ ns →
          ((lo, hi) = match q with
            | .station => (0, 16777214)
            | .broadcastGrade => (1, 3)
            | .broadcastHop => (0, 3)
            | .leadWindow => (0, 65535)
            | .settleInterval => (0, 255)
            | .repeatSpacing => (1, 255)
            | .defaultRepeat => (0, 15)
            | .answerMargin => (0, 63)
            | .retryLimit => (0, 7)
            | .holdInterval => (8, 1023)
            | .reportPort => (1, 2)
            | .maxBody => (24, 64)) →
          t.conf.value q = max lo (min hi v) ∧ (v < lo ∨ hi < v → o = .adjusted))
      ∧ ((∀ q v, (q, v) ∈ ns → t.conf.value q = v) → o = .done)
      ∧ (t.conf.reportPort = s.conf.reportPort ∨ s.rx.heldOrder = [] →
          Told (otherPort p) (.configChanged
            ((allParams.filter fun q => decide (q ∈ ns.map Prod.fst)).map fun q => (q, s.conf.value q, t.conf.value q))) s t)
      ∧ (∀ i rest r, t.conf.reportPort ≠ s.conf.reportPort → s.rx.heldOrder = i :: rest → s.rx.pool.get i = .held r →
          Told t.conf.reportPort (.reportWaiting r.source r.number s.rx.heldOrder.length) s t
          ∧ ∀ told, told = NoticeBody.configChanged
              ((allParams.filter fun q => decide (q ∈ ns.map Prod.fst)).map fun q => (q, s.conf.value q, t.conf.value q)) →
            (t.conf.reportPort = p → Told (otherPort p) told s t)
            ∧ (t.conf.reportPort = otherPort p → (s.port (otherPort p)).shedding = false →
              (s.port (otherPort p)).notices.length < 14 → (t.port (otherPort p)).notices = (s.port (otherPort p)).notices
                ++ [{ count := s.count, body := .reportWaiting r.source r.number s.rx.heldOrder.length },
                    { count := s.count, body := told }]))
      ∧ (t.conf.station = 0 → ParamId.station ∈ ns.map Prod.fst → s.tx.state ≠ .sending →
          t.tx = { s.tx with state := .dormant, backoffEnd := none })
      ∧ (t.conf.station ≠ 0 → ParamId.station ∈ ns.map Prod.fst → s.tx.state = .dormant → s.time.state = .present →
          t.tx = { s.tx with state := .idle } ∧ t.arb = { s.arb with claimOpen := false })
      ∧ ((ParamId.station ∉ ns.map Prod.fst ∨ s.tx.state = .sending) → t.tx = s.tx)
      ∧ (t.conf.station ≠ 0 → (s.tx.state ≠ .dormant ∨ s.time.state ≠ .present) → t.tx = s.tx ∧ t.arb = s.arb)
      ∧ t.time = s.time ∧ t.groups = s.groups ∧ t.waits = s.waits ∧ t.schedule = s.schedule ∧ t.disp = s.disp
      ∧ t.exch = s.exch ∧ t.routes = s.routes ∧ t.rx = s.rx
      ∧ ((t.conf.station = 0 ∨ ParamId.station ∉ ns.map Prod.fst ∨ s.tx.state ≠ .dormant ∨ s.time.state ≠ .present) →
          t.arb = s.arb)
end

