-- ==== Sys2Proof/Laws/State.lean ====
section
/-! SUPPORT. One lemma for each block under each setter of the state, all true by rfl, so that no later proof unfolds a
record update; and the laws of the per-port and per-phase values. -/

namespace Sys2Proof.Machine

variable (s : State)

@[simp] theorem State.setTime_time (x : TimeBase) : (s.setTime x).time = x := rfl
@[simp] theorem State.setTime_groups (x : TimeBase) : (s.setTime x).groups = s.groups := rfl
@[simp] theorem State.setTime_waits (x : TimeBase) : (s.setTime x).waits = s.waits := rfl
@[simp] theorem State.setTime_schedule (x : TimeBase) : (s.setTime x).schedule = s.schedule := rfl
@[simp] theorem State.setTime_heldBack (x : TimeBase) : (s.setTime x).heldBack = s.heldBack := rfl
@[simp] theorem State.setTime_disp (x : TimeBase) : (s.setTime x).disp = s.disp := rfl
@[simp] theorem State.setTime_exch (x : TimeBase) : (s.setTime x).exch = s.exch := rfl
@[simp] theorem State.setTime_routes (x : TimeBase) : (s.setTime x).routes = s.routes := rfl
@[simp] theorem State.setTime_arb (x : TimeBase) : (s.setTime x).arb = s.arb := rfl
@[simp] theorem State.setTime_tx (x : TimeBase) : (s.setTime x).tx = s.tx := rfl
@[simp] theorem State.setTime_rx (x : TimeBase) : (s.setTime x).rx = s.rx := rfl
@[simp] theorem State.setTime_ports (x : TimeBase) : (s.setTime x).ports = s.ports := rfl
@[simp] theorem State.setTime_conf (x : TimeBase) : (s.setTime x).conf = s.conf := rfl
@[simp] theorem State.setTime_choices (x : TimeBase) : (s.setTime x).choices = s.choices := rfl
@[simp] theorem State.setTime_pending (x : TimeBase) : (s.setTime x).pending = s.pending := rfl

@[simp] theorem State.setGroups_time (x : Vector GroupRec 64) : (s.setGroups x).time = s.time := rfl
@[simp] theorem State.setGroups_groups (x : Vector GroupRec 64) : (s.setGroups x).groups = x := rfl
@[simp] theorem State.setGroups_waits (x : Vector GroupRec 64) : (s.setGroups x).waits = s.waits := rfl
@[simp] theorem State.setGroups_schedule (x : Vector GroupRec 64) : (s.setGroups x).schedule = s.schedule := rfl
@[simp] theorem State.setGroups_heldBack (x : Vector GroupRec 64) : (s.setGroups x).heldBack = s.heldBack := rfl
@[simp] theorem State.setGroups_disp (x : Vector GroupRec 64) : (s.setGroups x).disp = s.disp := rfl
@[simp] theorem State.setGroups_exch (x : Vector GroupRec 64) : (s.setGroups x).exch = s.exch := rfl
@[simp] theorem State.setGroups_routes (x : Vector GroupRec 64) : (s.setGroups x).routes = s.routes := rfl
@[simp] theorem State.setGroups_arb (x : Vector GroupRec 64) : (s.setGroups x).arb = s.arb := rfl
@[simp] theorem State.setGroups_tx (x : Vector GroupRec 64) : (s.setGroups x).tx = s.tx := rfl
@[simp] theorem State.setGroups_rx (x : Vector GroupRec 64) : (s.setGroups x).rx = s.rx := rfl
@[simp] theorem State.setGroups_ports (x : Vector GroupRec 64) : (s.setGroups x).ports = s.ports := rfl
@[simp] theorem State.setGroups_conf (x : Vector GroupRec 64) : (s.setGroups x).conf = s.conf := rfl
@[simp] theorem State.setGroups_choices (x : Vector GroupRec 64) : (s.setGroups x).choices = s.choices := rfl
@[simp] theorem State.setGroups_pending (x : Vector GroupRec 64) : (s.setGroups x).pending = s.pending := rfl

@[simp] theorem State.setWaits_time (x : PerPort (Option Wait)) : (s.setWaits x).time = s.time := rfl
@[simp] theorem State.setWaits_groups (x : PerPort (Option Wait)) : (s.setWaits x).groups = s.groups := rfl
@[simp] theorem State.setWaits_waits (x : PerPort (Option Wait)) : (s.setWaits x).waits = x := rfl
@[simp] theorem State.setWaits_schedule (x : PerPort (Option Wait)) : (s.setWaits x).schedule = s.schedule := rfl
@[simp] theorem State.setWaits_heldBack (x : PerPort (Option Wait)) : (s.setWaits x).heldBack = s.heldBack := rfl
@[simp] theorem State.setWaits_disp (x : PerPort (Option Wait)) : (s.setWaits x).disp = s.disp := rfl
@[simp] theorem State.setWaits_exch (x : PerPort (Option Wait)) : (s.setWaits x).exch = s.exch := rfl
@[simp] theorem State.setWaits_routes (x : PerPort (Option Wait)) : (s.setWaits x).routes = s.routes := rfl
@[simp] theorem State.setWaits_arb (x : PerPort (Option Wait)) : (s.setWaits x).arb = s.arb := rfl
@[simp] theorem State.setWaits_tx (x : PerPort (Option Wait)) : (s.setWaits x).tx = s.tx := rfl
@[simp] theorem State.setWaits_rx (x : PerPort (Option Wait)) : (s.setWaits x).rx = s.rx := rfl
@[simp] theorem State.setWaits_ports (x : PerPort (Option Wait)) : (s.setWaits x).ports = s.ports := rfl
@[simp] theorem State.setWaits_conf (x : PerPort (Option Wait)) : (s.setWaits x).conf = s.conf := rfl
@[simp] theorem State.setWaits_choices (x : PerPort (Option Wait)) : (s.setWaits x).choices = s.choices := rfl
@[simp] theorem State.setWaits_pending (x : PerPort (Option Wait)) : (s.setWaits x).pending = s.pending := rfl

@[simp] theorem State.setSchedule_time (x : List SchedEntry) : (s.setSchedule x).time = s.time := rfl
@[simp] theorem State.setSchedule_groups (x : List SchedEntry) : (s.setSchedule x).groups = s.groups := rfl
@[simp] theorem State.setSchedule_waits (x : List SchedEntry) : (s.setSchedule x).waits = s.waits := rfl
@[simp] theorem State.setSchedule_schedule (x : List SchedEntry) : (s.setSchedule x).schedule = x := rfl
@[simp] theorem State.setSchedule_heldBack (x : List SchedEntry) : (s.setSchedule x).heldBack = s.heldBack := rfl
@[simp] theorem State.setSchedule_disp (x : List SchedEntry) : (s.setSchedule x).disp = s.disp := rfl
@[simp] theorem State.setSchedule_exch (x : List SchedEntry) : (s.setSchedule x).exch = s.exch := rfl
@[simp] theorem State.setSchedule_routes (x : List SchedEntry) : (s.setSchedule x).routes = s.routes := rfl
@[simp] theorem State.setSchedule_arb (x : List SchedEntry) : (s.setSchedule x).arb = s.arb := rfl
@[simp] theorem State.setSchedule_tx (x : List SchedEntry) : (s.setSchedule x).tx = s.tx := rfl
@[simp] theorem State.setSchedule_rx (x : List SchedEntry) : (s.setSchedule x).rx = s.rx := rfl
@[simp] theorem State.setSchedule_ports (x : List SchedEntry) : (s.setSchedule x).ports = s.ports := rfl
@[simp] theorem State.setSchedule_conf (x : List SchedEntry) : (s.setSchedule x).conf = s.conf := rfl
@[simp] theorem State.setSchedule_choices (x : List SchedEntry) : (s.setSchedule x).choices = s.choices := rfl
@[simp] theorem State.setSchedule_pending (x : List SchedEntry) : (s.setSchedule x).pending = s.pending := rfl

@[simp] theorem State.setHeldBack_time (x : Bool) : (s.setHeldBack x).time = s.time := rfl
@[simp] theorem State.setHeldBack_groups (x : Bool) : (s.setHeldBack x).groups = s.groups := rfl
@[simp] theorem State.setHeldBack_waits (x : Bool) : (s.setHeldBack x).waits = s.waits := rfl
@[simp] theorem State.setHeldBack_schedule (x : Bool) : (s.setHeldBack x).schedule = s.schedule := rfl
@[simp] theorem State.setHeldBack_heldBack (x : Bool) : (s.setHeldBack x).heldBack = x := rfl
@[simp] theorem State.setHeldBack_disp (x : Bool) : (s.setHeldBack x).disp = s.disp := rfl
@[simp] theorem State.setHeldBack_exch (x : Bool) : (s.setHeldBack x).exch = s.exch := rfl
@[simp] theorem State.setHeldBack_routes (x : Bool) : (s.setHeldBack x).routes = s.routes := rfl
@[simp] theorem State.setHeldBack_arb (x : Bool) : (s.setHeldBack x).arb = s.arb := rfl
@[simp] theorem State.setHeldBack_tx (x : Bool) : (s.setHeldBack x).tx = s.tx := rfl
@[simp] theorem State.setHeldBack_rx (x : Bool) : (s.setHeldBack x).rx = s.rx := rfl
@[simp] theorem State.setHeldBack_ports (x : Bool) : (s.setHeldBack x).ports = s.ports := rfl
@[simp] theorem State.setHeldBack_conf (x : Bool) : (s.setHeldBack x).conf = s.conf := rfl
@[simp] theorem State.setHeldBack_choices (x : Bool) : (s.setHeldBack x).choices = s.choices := rfl
@[simp] theorem State.setHeldBack_pending (x : Bool) : (s.setHeldBack x).pending = s.pending := rfl

@[simp] theorem State.setDisp_time (x : Dispatcher) : (s.setDisp x).time = s.time := rfl
@[simp] theorem State.setDisp_groups (x : Dispatcher) : (s.setDisp x).groups = s.groups := rfl
@[simp] theorem State.setDisp_waits (x : Dispatcher) : (s.setDisp x).waits = s.waits := rfl
@[simp] theorem State.setDisp_schedule (x : Dispatcher) : (s.setDisp x).schedule = s.schedule := rfl
@[simp] theorem State.setDisp_heldBack (x : Dispatcher) : (s.setDisp x).heldBack = s.heldBack := rfl
@[simp] theorem State.setDisp_disp (x : Dispatcher) : (s.setDisp x).disp = x := rfl
@[simp] theorem State.setDisp_exch (x : Dispatcher) : (s.setDisp x).exch = s.exch := rfl
@[simp] theorem State.setDisp_routes (x : Dispatcher) : (s.setDisp x).routes = s.routes := rfl
@[simp] theorem State.setDisp_arb (x : Dispatcher) : (s.setDisp x).arb = s.arb := rfl
@[simp] theorem State.setDisp_tx (x : Dispatcher) : (s.setDisp x).tx = s.tx := rfl
@[simp] theorem State.setDisp_rx (x : Dispatcher) : (s.setDisp x).rx = s.rx := rfl
@[simp] theorem State.setDisp_ports (x : Dispatcher) : (s.setDisp x).ports = s.ports := rfl
@[simp] theorem State.setDisp_conf (x : Dispatcher) : (s.setDisp x).conf = s.conf := rfl
@[simp] theorem State.setDisp_choices (x : Dispatcher) : (s.setDisp x).choices = s.choices := rfl
@[simp] theorem State.setDisp_pending (x : Dispatcher) : (s.setDisp x).pending = s.pending := rfl

@[simp] theorem State.setExch_time (x : ExchangeEngine) : (s.setExch x).time = s.time := rfl
@[simp] theorem State.setExch_groups (x : ExchangeEngine) : (s.setExch x).groups = s.groups := rfl
@[simp] theorem State.setExch_waits (x : ExchangeEngine) : (s.setExch x).waits = s.waits := rfl
@[simp] theorem State.setExch_schedule (x : ExchangeEngine) : (s.setExch x).schedule = s.schedule := rfl
@[simp] theorem State.setExch_heldBack (x : ExchangeEngine) : (s.setExch x).heldBack = s.heldBack := rfl
@[simp] theorem State.setExch_disp (x : ExchangeEngine) : (s.setExch x).disp = s.disp := rfl
@[simp] theorem State.setExch_exch (x : ExchangeEngine) : (s.setExch x).exch = x := rfl
@[simp] theorem State.setExch_routes (x : ExchangeEngine) : (s.setExch x).routes = s.routes := rfl
@[simp] theorem State.setExch_arb (x : ExchangeEngine) : (s.setExch x).arb = s.arb := rfl
@[simp] theorem State.setExch_tx (x : ExchangeEngine) : (s.setExch x).tx = s.tx := rfl
@[simp] theorem State.setExch_rx (x : ExchangeEngine) : (s.setExch x).rx = s.rx := rfl
@[simp] theorem State.setExch_ports (x : ExchangeEngine) : (s.setExch x).ports = s.ports := rfl
@[simp] theorem State.setExch_conf (x : ExchangeEngine) : (s.setExch x).conf = s.conf := rfl
@[simp] theorem State.setExch_choices (x : ExchangeEngine) : (s.setExch x).choices = s.choices := rfl
@[simp] theorem State.setExch_pending (x : ExchangeEngine) : (s.setExch x).pending = s.pending := rfl

@[simp] theorem State.setRoutes_time (x : RouteCache) : (s.setRoutes x).time = s.time := rfl
@[simp] theorem State.setRoutes_groups (x : RouteCache) : (s.setRoutes x).groups = s.groups := rfl
@[simp] theorem State.setRoutes_waits (x : RouteCache) : (s.setRoutes x).waits = s.waits := rfl
@[simp] theorem State.setRoutes_schedule (x : RouteCache) : (s.setRoutes x).schedule = s.schedule := rfl
@[simp] theorem State.setRoutes_heldBack (x : RouteCache) : (s.setRoutes x).heldBack = s.heldBack := rfl
@[simp] theorem State.setRoutes_disp (x : RouteCache) : (s.setRoutes x).disp = s.disp := rfl
@[simp] theorem State.setRoutes_exch (x : RouteCache) : (s.setRoutes x).exch = s.exch := rfl
@[simp] theorem State.setRoutes_routes (x : RouteCache) : (s.setRoutes x).routes = x := rfl
@[simp] theorem State.setRoutes_arb (x : RouteCache) : (s.setRoutes x).arb = s.arb := rfl
@[simp] theorem State.setRoutes_tx (x : RouteCache) : (s.setRoutes x).tx = s.tx := rfl
@[simp] theorem State.setRoutes_rx (x : RouteCache) : (s.setRoutes x).rx = s.rx := rfl
@[simp] theorem State.setRoutes_ports (x : RouteCache) : (s.setRoutes x).ports = s.ports := rfl
@[simp] theorem State.setRoutes_conf (x : RouteCache) : (s.setRoutes x).conf = s.conf := rfl
@[simp] theorem State.setRoutes_choices (x : RouteCache) : (s.setRoutes x).choices = s.choices := rfl
@[simp] theorem State.setRoutes_pending (x : RouteCache) : (s.setRoutes x).pending = s.pending := rfl

@[simp] theorem State.setArb_time (x : Arbiter) : (s.setArb x).time = s.time := rfl
@[simp] theorem State.setArb_groups (x : Arbiter) : (s.setArb x).groups = s.groups := rfl
@[simp] theorem State.setArb_waits (x : Arbiter) : (s.setArb x).waits = s.waits := rfl
@[simp] theorem State.setArb_schedule (x : Arbiter) : (s.setArb x).schedule = s.schedule := rfl
@[simp] theorem State.setArb_heldBack (x : Arbiter) : (s.setArb x).heldBack = s.heldBack := rfl
@[simp] theorem State.setArb_disp (x : Arbiter) : (s.setArb x).disp = s.disp := rfl
@[simp] theorem State.setArb_exch (x : Arbiter) : (s.setArb x).exch = s.exch := rfl
@[simp] theorem State.setArb_routes (x : Arbiter) : (s.setArb x).routes = s.routes := rfl
@[simp] theorem State.setArb_arb (x : Arbiter) : (s.setArb x).arb = x := rfl
@[simp] theorem State.setArb_tx (x : Arbiter) : (s.setArb x).tx = s.tx := rfl
@[simp] theorem State.setArb_rx (x : Arbiter) : (s.setArb x).rx = s.rx := rfl
@[simp] theorem State.setArb_ports (x : Arbiter) : (s.setArb x).ports = s.ports := rfl
@[simp] theorem State.setArb_conf (x : Arbiter) : (s.setArb x).conf = s.conf := rfl
@[simp] theorem State.setArb_choices (x : Arbiter) : (s.setArb x).choices = s.choices := rfl
@[simp] theorem State.setArb_pending (x : Arbiter) : (s.setArb x).pending = s.pending := rfl

@[simp] theorem State.setTx_time (x : Transmitter) : (s.setTx x).time = s.time := rfl
@[simp] theorem State.setTx_groups (x : Transmitter) : (s.setTx x).groups = s.groups := rfl
@[simp] theorem State.setTx_waits (x : Transmitter) : (s.setTx x).waits = s.waits := rfl
@[simp] theorem State.setTx_schedule (x : Transmitter) : (s.setTx x).schedule = s.schedule := rfl
@[simp] theorem State.setTx_heldBack (x : Transmitter) : (s.setTx x).heldBack = s.heldBack := rfl
@[simp] theorem State.setTx_disp (x : Transmitter) : (s.setTx x).disp = s.disp := rfl
@[simp] theorem State.setTx_exch (x : Transmitter) : (s.setTx x).exch = s.exch := rfl
@[simp] theorem State.setTx_routes (x : Transmitter) : (s.setTx x).routes = s.routes := rfl
@[simp] theorem State.setTx_arb (x : Transmitter) : (s.setTx x).arb = s.arb := rfl
@[simp] theorem State.setTx_tx (x : Transmitter) : (s.setTx x).tx = x := rfl
@[simp] theorem State.setTx_rx (x : Transmitter) : (s.setTx x).rx = s.rx := rfl
@[simp] theorem State.setTx_ports (x : Transmitter) : (s.setTx x).ports = s.ports := rfl
@[simp] theorem State.setTx_conf (x : Transmitter) : (s.setTx x).conf = s.conf := rfl
@[simp] theorem State.setTx_choices (x : Transmitter) : (s.setTx x).choices = s.choices := rfl
@[simp] theorem State.setTx_pending (x : Transmitter) : (s.setTx x).pending = s.pending := rfl

@[simp] theorem State.setRx_time (x : Receiver) : (s.setRx x).time = s.time := rfl
@[simp] theorem State.setRx_groups (x : Receiver) : (s.setRx x).groups = s.groups := rfl
@[simp] theorem State.setRx_waits (x : Receiver) : (s.setRx x).waits = s.waits := rfl
@[simp] theorem State.setRx_schedule (x : Receiver) : (s.setRx x).schedule = s.schedule := rfl
@[simp] theorem State.setRx_heldBack (x : Receiver) : (s.setRx x).heldBack = s.heldBack := rfl
@[simp] theorem State.setRx_disp (x : Receiver) : (s.setRx x).disp = s.disp := rfl
@[simp] theorem State.setRx_exch (x : Receiver) : (s.setRx x).exch = s.exch := rfl
@[simp] theorem State.setRx_routes (x : Receiver) : (s.setRx x).routes = s.routes := rfl
@[simp] theorem State.setRx_arb (x : Receiver) : (s.setRx x).arb = s.arb := rfl
@[simp] theorem State.setRx_tx (x : Receiver) : (s.setRx x).tx = s.tx := rfl
@[simp] theorem State.setRx_rx (x : Receiver) : (s.setRx x).rx = x := rfl
@[simp] theorem State.setRx_ports (x : Receiver) : (s.setRx x).ports = s.ports := rfl
@[simp] theorem State.setRx_conf (x : Receiver) : (s.setRx x).conf = s.conf := rfl
@[simp] theorem State.setRx_choices (x : Receiver) : (s.setRx x).choices = s.choices := rfl
@[simp] theorem State.setRx_pending (x : Receiver) : (s.setRx x).pending = s.pending := rfl

@[simp] theorem State.setPorts_time (x : PerPort PortCtl) : (s.setPorts x).time = s.time := rfl
@[simp] theorem State.setPorts_groups (x : PerPort PortCtl) : (s.setPorts x).groups = s.groups := rfl
@[simp] theorem State.setPorts_waits (x : PerPort PortCtl) : (s.setPorts x).waits = s.waits := rfl
@[simp] theorem State.setPorts_schedule (x : PerPort PortCtl) : (s.setPorts x).schedule = s.schedule := rfl
@[simp] theorem State.setPorts_heldBack (x : PerPort PortCtl) : (s.setPorts x).heldBack = s.heldBack := rfl
@[simp] theorem State.setPorts_disp (x : PerPort PortCtl) : (s.setPorts x).disp = s.disp := rfl
@[simp] theorem State.setPorts_exch (x : PerPort PortCtl) : (s.setPorts x).exch = s.exch := rfl
@[simp] theorem State.setPorts_routes (x : PerPort PortCtl) : (s.setPorts x).routes = s.routes := rfl
@[simp] theorem State.setPorts_arb (x : PerPort PortCtl) : (s.setPorts x).arb = s.arb := rfl
@[simp] theorem State.setPorts_tx (x : PerPort PortCtl) : (s.setPorts x).tx = s.tx := rfl
@[simp] theorem State.setPorts_rx (x : PerPort PortCtl) : (s.setPorts x).rx = s.rx := rfl
@[simp] theorem State.setPorts_ports (x : PerPort PortCtl) : (s.setPorts x).ports = x := rfl
@[simp] theorem State.setPorts_conf (x : PerPort PortCtl) : (s.setPorts x).conf = s.conf := rfl
@[simp] theorem State.setPorts_choices (x : PerPort PortCtl) : (s.setPorts x).choices = s.choices := rfl
@[simp] theorem State.setPorts_pending (x : PerPort PortCtl) : (s.setPorts x).pending = s.pending := rfl

@[simp] theorem State.setConf_time (x : Params) : (s.setConf x).time = s.time := rfl
@[simp] theorem State.setConf_groups (x : Params) : (s.setConf x).groups = s.groups := rfl
@[simp] theorem State.setConf_waits (x : Params) : (s.setConf x).waits = s.waits := rfl
@[simp] theorem State.setConf_schedule (x : Params) : (s.setConf x).schedule = s.schedule := rfl
@[simp] theorem State.setConf_heldBack (x : Params) : (s.setConf x).heldBack = s.heldBack := rfl
@[simp] theorem State.setConf_disp (x : Params) : (s.setConf x).disp = s.disp := rfl
@[simp] theorem State.setConf_exch (x : Params) : (s.setConf x).exch = s.exch := rfl
@[simp] theorem State.setConf_routes (x : Params) : (s.setConf x).routes = s.routes := rfl
@[simp] theorem State.setConf_arb (x : Params) : (s.setConf x).arb = s.arb := rfl
@[simp] theorem State.setConf_tx (x : Params) : (s.setConf x).tx = s.tx := rfl
@[simp] theorem State.setConf_rx (x : Params) : (s.setConf x).rx = s.rx := rfl
@[simp] theorem State.setConf_ports (x : Params) : (s.setConf x).ports = s.ports := rfl
@[simp] theorem State.setConf_conf (x : Params) : (s.setConf x).conf = x := rfl
@[simp] theorem State.setConf_choices (x : Params) : (s.setConf x).choices = s.choices := rfl
@[simp] theorem State.setConf_pending (x : Params) : (s.setConf x).pending = s.pending := rfl

@[simp] theorem State.setChoices_time (x : Nat) : (s.setChoices x).time = s.time := rfl
@[simp] theorem State.setChoices_groups (x : Nat) : (s.setChoices x).groups = s.groups := rfl
@[simp] theorem State.setChoices_waits (x : Nat) : (s.setChoices x).waits = s.waits := rfl
@[simp] theorem State.setChoices_schedule (x : Nat) : (s.setChoices x).schedule = s.schedule := rfl
@[simp] theorem State.setChoices_heldBack (x : Nat) : (s.setChoices x).heldBack = s.heldBack := rfl
@[simp] theorem State.setChoices_disp (x : Nat) : (s.setChoices x).disp = s.disp := rfl
@[simp] theorem State.setChoices_exch (x : Nat) : (s.setChoices x).exch = s.exch := rfl
@[simp] theorem State.setChoices_routes (x : Nat) : (s.setChoices x).routes = s.routes := rfl
@[simp] theorem State.setChoices_arb (x : Nat) : (s.setChoices x).arb = s.arb := rfl
@[simp] theorem State.setChoices_tx (x : Nat) : (s.setChoices x).tx = s.tx := rfl
@[simp] theorem State.setChoices_rx (x : Nat) : (s.setChoices x).rx = s.rx := rfl
@[simp] theorem State.setChoices_ports (x : Nat) : (s.setChoices x).ports = s.ports := rfl
@[simp] theorem State.setChoices_conf (x : Nat) : (s.setChoices x).conf = s.conf := rfl
@[simp] theorem State.setChoices_choices (x : Nat) : (s.setChoices x).choices = x := rfl
@[simp] theorem State.setChoices_pending (x : Nat) : (s.setChoices x).pending = s.pending := rfl

@[simp] theorem State.setPending_time (x : List Instr) : (s.setPending x).time = s.time := rfl
@[simp] theorem State.setPending_groups (x : List Instr) : (s.setPending x).groups = s.groups := rfl
@[simp] theorem State.setPending_waits (x : List Instr) : (s.setPending x).waits = s.waits := rfl
@[simp] theorem State.setPending_schedule (x : List Instr) : (s.setPending x).schedule = s.schedule := rfl
@[simp] theorem State.setPending_heldBack (x : List Instr) : (s.setPending x).heldBack = s.heldBack := rfl
@[simp] theorem State.setPending_disp (x : List Instr) : (s.setPending x).disp = s.disp := rfl
@[simp] theorem State.setPending_exch (x : List Instr) : (s.setPending x).exch = s.exch := rfl
@[simp] theorem State.setPending_routes (x : List Instr) : (s.setPending x).routes = s.routes := rfl
@[simp] theorem State.setPending_arb (x : List Instr) : (s.setPending x).arb = s.arb := rfl
@[simp] theorem State.setPending_tx (x : List Instr) : (s.setPending x).tx = s.tx := rfl
@[simp] theorem State.setPending_rx (x : List Instr) : (s.setPending x).rx = s.rx := rfl
@[simp] theorem State.setPending_ports (x : List Instr) : (s.setPending x).ports = s.ports := rfl
@[simp] theorem State.setPending_conf (x : List Instr) : (s.setPending x).conf = s.conf := rfl
@[simp] theorem State.setPending_choices (x : List Instr) : (s.setPending x).choices = s.choices := rfl
@[simp] theorem State.setPending_pending (x : List Instr) : (s.setPending x).pending = x := rfl

@[simp] theorem State.setTime_setTime (x y : TimeBase) : (s.setTime x).setTime y = s.setTime y := rfl
@[simp] theorem State.setGroups_setGroups (x y : Vector GroupRec 64) : (s.setGroups x).setGroups y = s.setGroups y := rfl
@[simp] theorem State.setWaits_setWaits (x y : PerPort (Option Wait)) : (s.setWaits x).setWaits y = s.setWaits y := rfl
@[simp] theorem State.setSchedule_setSchedule (x y : List SchedEntry) : (s.setSchedule x).setSchedule y = s.setSchedule y := rfl
@[simp] theorem State.setHeldBack_setHeldBack (x y : Bool) : (s.setHeldBack x).setHeldBack y = s.setHeldBack y := rfl
@[simp] theorem State.setDisp_setDisp (x y : Dispatcher) : (s.setDisp x).setDisp y = s.setDisp y := rfl
@[simp] theorem State.setExch_setExch (x y : ExchangeEngine) : (s.setExch x).setExch y = s.setExch y := rfl
@[simp] theorem State.setRoutes_setRoutes (x y : RouteCache) : (s.setRoutes x).setRoutes y = s.setRoutes y := rfl
@[simp] theorem State.setArb_setArb (x y : Arbiter) : (s.setArb x).setArb y = s.setArb y := rfl
@[simp] theorem State.setTx_setTx (x y : Transmitter) : (s.setTx x).setTx y = s.setTx y := rfl
@[simp] theorem State.setRx_setRx (x y : Receiver) : (s.setRx x).setRx y = s.setRx y := rfl
@[simp] theorem State.setPorts_setPorts (x y : PerPort PortCtl) : (s.setPorts x).setPorts y = s.setPorts y := rfl
@[simp] theorem State.setConf_setConf (x y : Params) : (s.setConf x).setConf y = s.setConf y := rfl
@[simp] theorem State.setChoices_setChoices (x y : Nat) : (s.setChoices x).setChoices y = s.setChoices y := rfl
@[simp] theorem State.setPending_setPending (x y : List Instr) : (s.setPending x).setPending y = s.setPending y := rfl

@[simp] theorem PerPort.get_set_same {α : Type} (v : PerPort α) (p : Port) (x : α) : (v.set p x).get p = x := by
  cases p <;> rfl

theorem PerPort.get_set_ne {α : Type} (v : PerPort α) {p q : Port} (x : α) (h : q ≠ p) : (v.set p x).get q = v.get q := by
  cases p <;> cases q <;> first | rfl | exact absurd rfl h

theorem PerPort.get_set {α : Type} (v : PerPort α) (p q : Port) (x : α) :
    (v.set p x).get q = if q = p then x else v.get q := by
  cases p <;> cases q <;> rfl

@[simp] theorem PerPhase.get_set_same {α : Type} (v : PerPhase α) (p : Phase) (x : α) : (v.set p x).get p = x := by
  cases p <;> rfl

theorem PerPhase.get_set_ne {α : Type} (v : PerPhase α) {p q : Phase} (x : α) (h : q ≠ p) : (v.set p x).get q = v.get q := by
  cases p <;> cases q <;> first | rfl | exact absurd rfl h

end Sys2Proof.Machine
end

