-- ==== Sys2Proof/Laws/Ops.lean ====
section
/-! SUPPORT. The laws of the shared operations on ports and groups: what each reads back as, and what it leaves alone. -/

namespace Sys2Proof.Machine

/-! ## Ports -/

@[simp] theorem updPort_port_same (p : Port) (f : PortCtl → PortCtl) (s : State) :
    (updPort p f s).port p = f (s.port p) := by simp [updPort, State.port]

theorem updPort_port (p q : Port) (f : PortCtl → PortCtl) (s : State) :
    (updPort p f s).port q = if q = p then f (s.port p) else s.port q := by
  simp only [updPort, State.port, State.setPorts_ports, PerPort.get_set]

theorem updPort_port_ne {p q : Port} (f : PortCtl → PortCtl) (s : State) (h : q ≠ p) :
    (updPort p f s).port q = s.port q := by simp [updPort_port, h]

@[simp] theorem otherPort_ne (p : Port) : otherPort p ≠ p := by cases p <;> decide

@[simp] theorem ne_otherPort (p : Port) : p ≠ otherPort p := by cases p <;> decide

theorem eq_otherPort_of_ne {p q : Port} (h : q ≠ p) : q = otherPort p := by cases p <;> cases q <;> simp_all [otherPort]

@[simp] theorem updPort_time (p : Port) (f : PortCtl → PortCtl) (s : State) : (updPort p f s).time = s.time := rfl
@[simp] theorem updPort_groups (p : Port) (f : PortCtl → PortCtl) (s : State) : (updPort p f s).groups = s.groups := rfl
@[simp] theorem updPort_waits (p : Port) (f : PortCtl → PortCtl) (s : State) : (updPort p f s).waits = s.waits := rfl
@[simp] theorem updPort_schedule (p : Port) (f : PortCtl → PortCtl) (s : State) :
    (updPort p f s).schedule = s.schedule := rfl
@[simp] theorem updPort_heldBack (p : Port) (f : PortCtl → PortCtl) (s : State) :
    (updPort p f s).heldBack = s.heldBack := rfl
@[simp] theorem updPort_disp (p : Port) (f : PortCtl → PortCtl) (s : State) : (updPort p f s).disp = s.disp := rfl
@[simp] theorem updPort_exch (p : Port) (f : PortCtl → PortCtl) (s : State) : (updPort p f s).exch = s.exch := rfl
@[simp] theorem updPort_routes (p : Port) (f : PortCtl → PortCtl) (s : State) : (updPort p f s).routes = s.routes := rfl
@[simp] theorem updPort_arb (p : Port) (f : PortCtl → PortCtl) (s : State) : (updPort p f s).arb = s.arb := rfl
@[simp] theorem updPort_tx (p : Port) (f : PortCtl → PortCtl) (s : State) : (updPort p f s).tx = s.tx := rfl
@[simp] theorem updPort_rx (p : Port) (f : PortCtl → PortCtl) (s : State) : (updPort p f s).rx = s.rx := rfl
@[simp] theorem updPort_conf (p : Port) (f : PortCtl → PortCtl) (s : State) : (updPort p f s).conf = s.conf := rfl
@[simp] theorem updPort_choices (p : Port) (f : PortCtl → PortCtl) (s : State) : (updPort p f s).choices = s.choices := rfl
@[simp] theorem updPort_pending (p : Port) (f : PortCtl → PortCtl) (s : State) : (updPort p f s).pending = s.pending := rfl
@[simp] theorem updPort_setPorts (p : Port) (f : PortCtl → PortCtl) (s : State) (x : PerPort PortCtl) :
    (updPort p f s).setPorts x = s.setPorts x := rfl
@[simp] theorem State.setPorts_self (s : State) : s.setPorts s.ports = s := rfl

/-! ## Groups -/

/-- Reading a place of a vector after one place was written. -/
theorem vector_get_set {α : Type} {n : Nat} (v : Vector α n) (i j : Fin n) (x : α) :
    (v.set i x).get j = if j = i then x else v.get j := by
  have h : ∀ (w : Vector α n) (k : Fin n), w.get k = w[k.val] := fun _ _ => rfl
  rw [h, h, Vector.getElem_set]
  by_cases e : j = i
  · simp [e]
  · have : i.val ≠ j.val := fun q => e (Fin.ext q.symm)
    simp [e, this]

theorem updGroup_group (g h : GroupNo) (f : GroupRec → GroupRec) (s : State) :
    (updGroup g f s).group h = if h = g then f (s.group g) else s.group h := by
  simp only [updGroup, State.group, State.setGroups_groups, vector_get_set]

@[simp] theorem updGroup_group_same (g : GroupNo) (f : GroupRec → GroupRec) (s : State) :
    (updGroup g f s).group g = f (s.group g) := by simp [updGroup_group]

theorem updGroup_group_ne {g h : GroupNo} (f : GroupRec → GroupRec) (s : State) (hn : h ≠ g) :
    (updGroup g f s).group h = s.group h := by simp [updGroup_group, hn]

@[simp] theorem updPort_group (p : Port) (f : PortCtl → PortCtl) (s : State) (g : GroupNo) :
    (updPort p f s).group g = s.group g := rfl
@[simp] theorem updPort_count (p : Port) (f : PortCtl → PortCtl) (s : State) : (updPort p f s).count = s.count := rfl
@[simp] theorem updGroup_count (g : GroupNo) (f : GroupRec → GroupRec) (s : State) : (updGroup g f s).count = s.count := rfl
@[simp] theorem updGroup_port (g : GroupNo) (f : GroupRec → GroupRec) (s : State) (p : Port) :
    (updGroup g f s).port p = s.port p := rfl
@[simp] theorem setQueue_group (q : List Entry) (s : State) (g : GroupNo) : (setQueue q s).group g = s.group g := rfl
@[simp] theorem setQueue_count (q : List Entry) (s : State) : (setQueue q s).count = s.count := rfl
@[simp] theorem setQueue_port (q : List Entry) (s : State) (p : Port) : (setQueue q s).port p = s.port p := rfl
@[simp] theorem setQueue_queue (q : List Entry) (s : State) : (setQueue q s).disp.queue = q := rfl

/-! ## Notices (R181) -/

/-- R181: counting a discard changes no place of the queue. -/
@[simp] theorem countDiscard_length (k : NoticeKind) (c : Count) (ns : List Notice) :
    (countDiscard k c ns).length = ns.length := by
  induction ns using countDiscard.induct with
  | case1 => simp [countDiscard]
  | case2 n d lost last h => simp [countDiscard, h]
  | case3 n h =>
    simp only [countDiscard]
  | case4 n m ns ih => simp [countDiscard, ih]

/-- R181: what the arrival of a notice leaves alone in the controller. -/
theorem arrive_keeps (c : PortCtl) (n : Count) (b : NoticeBody) :
    (c.arrive n b).state = c.state ∧ (c.arrive n b).inHand = c.inHand ∧ (c.arrive n b).slot = c.slot
      ∧ (c.arrive n b).overrun = c.overrun ∧ (c.arrive n b).mask = c.mask ∧ (c.arrive n b).summary = c.summary
      ∧ (c.arrive n b).record = c.record ∧ (c.arrive n b).noticeMask = c.noticeMask
      ∧ (c.arrive n b).dataOut = c.dataOut := by
  unfold PortCtl.arrive PortCtl.judge
  split
  · simp
  · split <;> simp

/-- R181, R183: an arrival keeps the limits of the notice queue and judges the attention line. -/
theorem arrive_limits (c : PortCtl) (n : Count) (b : NoticeBody) (h16 : c.notices.length ≤ 16)
    (h15 : c.shedding = false → c.notices.length ≤ 15) :
    (c.arrive n b).notices.length ≤ 16
      ∧ ((c.arrive n b).shedding = false → (c.arrive n b).notices.length ≤ 15)
      ∧ (c.arrive n b).attention = attentionOf (c.arrive n b).notices (c.arrive n b).noticeMask := by
  unfold PortCtl.arrive PortCtl.judge
  split
  · rename_i hs; simp [hs, h16]
  · rename_i hs
    have hs' : c.shedding = false := by simpa using hs
    have := h15 hs'
    split
    · rename_i hl; simp; omega
    · rename_i hl; simp; omega

end Sys2Proof.Machine
end

