-- ==== Sys2Proof/Laws/QueueSteps.lean ====
section
/-! SUPPORT. Everything that the Dispatcher's operations can do, said once: each is a chain of the small steps of
`QueueStep`. A property of the state that every small step keeps is kept by every such operation. -/

namespace Sys2Proof.Machine

/-- A queue that the Dispatcher's own operations may leave in place of `q`: no order or fence is new, a new announcement
entry is not started, and it is no longer than `q` or than 16. -/
structure QueueFrom (q q' : List Entry) : Prop where
  length : q'.length ≤ q.length ∨ q'.length ≤ 16
  works : q'.countP isWork ≤ q.countP isWork
  fresh : ∀ e ∈ q', e ∈ q ∨ ∃ a, e = Entry.ann a ∧ a.started = false

/-- The small steps of the operations on the dispatch queue. -/
inductive QueueStep : State → State → Prop where
  | notice (p : Port) (b : NoticeBody) (s : State) : QueueStep s (notify p b s)
  | wait (p : Port) (w : Wait) (m : Bool) (s : State) (h : s.waits.get p = some w) : QueueStep s (answerWait p w.group m s)
  | queue (q : List Entry) (s : State) (h : QueueFrom s.disp.queue q) : QueueStep s (setQueue q s)
  | record (g : GroupNo) (f : GroupRec → GroupRec) (s : State) (h : ∀ r, (f r).holding = r.holding)
      (k : ∀ r, (f r).stampCounter = r.stampCounter) : QueueStep s (updGroup g f s)
  | marks (f : SchedEntry → SchedEntry) (s : State) (h : ∀ e, (f e).unmarked = e.unmarked) :
      QueueStep s (s.setSchedule (s.schedule.map f))
  | abandon (g : GroupNo) (s : State) : QueueStep s (abandonFor g s)
  | space (m : PerPort Bool) (s : State) : QueueStep s (s.setDisp { s.disp with spaceMarks := m })
  | exchanges (x : ExchangeEngine) (s : State) (h : x.table.length ≤ s.exch.table.length ∨ x.table.length ≤ 8) :
      QueueStep s (s.setExch x)

/-- A chain of small steps. -/
abbrev QueueSteps : State → State → Prop := Relation.ReflTransGen QueueStep

/-- A property that every small step keeps is kept by a chain. -/
theorem QueueSteps.keeps {P : State → Prop} (hP : ∀ s t, QueueStep s t → P s → P t) {s t : State} (h : QueueSteps s t)
    (hs : P s) : P t := by
  induction h with
  | refl => exact hs
  | tail _ h ih => exact hP _ _ h ih

theorem QueueSteps.rfl' {s : State} : QueueSteps s s := Relation.ReflTransGen.refl

theorem QueueStep.one {s t : State} (h : QueueStep s t) : QueueSteps s t := Relation.ReflTransGen.single h

/-- A fold of operations that are chains is a chain. -/
theorem QueueSteps.foldl {α : Type} (f : State → α → State) (hf : ∀ s x, QueueSteps s (f s x)) (xs : List α) (s : State) :
    QueueSteps s (xs.foldl f s) := by
  induction xs generalizing s with
  | nil => exact QueueSteps.rfl'
  | cons x xs ih => exact (hf s x).trans (ih _)

/-! ## Queues -/

theorem QueueFrom.of_sublist {q q' : List Entry} (h : q'.Sublist q) : QueueFrom q q' :=
  ⟨.inl h.length_le, h.countP_le, fun _ he => .inl (h.subset he)⟩

theorem QueueFrom.append {q : List Entry} {a : Ann} (h : q.length < 16) (ha : a.started = false) :
    QueueFrom q (q ++ [.ann a]) :=
  ⟨.inr (by simp; omega), by simp [isWork], fun e he => by
    rcases List.mem_append.1 he with he | he
    · exact .inl he
    · exact .inr ⟨a, List.mem_singleton.1 he, ha⟩⟩

/-- R62: a merge changes one not-started announcement entry in its place. -/
theorem mergeIn_spec (r : AnnReq) (q : List Entry) {x : List Entry × Option Count} (h : mergeIn r q = some x) :
    x.1.length = q.length ∧ x.1.countP isWork = q.countP isWork
      ∧ ∀ e ∈ x.1, e ∈ q ∨ ∃ a, e = Entry.ann a ∧ a.started = false := by
  induction q generalizing x with
  | nil => simp [mergeIn] at h
  | cons e es ih =>
    cases e with
    | ann a =>
      simp only [mergeIn] at h
      split at h
      · rename_i hn
        obtain rfl := Option.some.inj h
        refine ⟨by simp, by simp [isWork], fun e he => ?_⟩
        rcases List.mem_cons.1 he with rfl | he
        · refine .inr ⟨_, rfl, ?_⟩
          simp [isNotStarted] at hn
          simp [mergeAnn, hn.2]
        · exact .inl (List.mem_cons_of_mem _ he)
      · obtain ⟨y, hy, rfl⟩ := Option.map_eq_some_iff.1 h
        obtain ⟨h1, h2, h3⟩ := ih hy
        refine ⟨by simp [h1], by simp [List.countP_cons, h2], fun e he => ?_⟩
        rcases List.mem_cons.1 he with rfl | he
        · exact .inl List.mem_cons_self
        · exact (h3 e he).imp (List.mem_cons_of_mem _) id
    | order o =>
      simp only [mergeIn] at h
      obtain ⟨y, hy, rfl⟩ := Option.map_eq_some_iff.1 h
      obtain ⟨h1, h2, h3⟩ := ih hy
      refine ⟨by simp [h1], by simp [List.countP_cons, h2], fun e he => ?_⟩
      rcases List.mem_cons.1 he with rfl | he
      · exact .inl List.mem_cons_self
      · exact (h3 e he).imp (List.mem_cons_of_mem _) id
    | fence p =>
      simp only [mergeIn] at h
      obtain ⟨y, hy, rfl⟩ := Option.map_eq_some_iff.1 h
      obtain ⟨h1, h2, h3⟩ := ih hy
      refine ⟨by simp [h1], by simp [List.countP_cons, h2], fun e he => ?_⟩
      rcases List.mem_cons.1 he with rfl | he
      · exact .inl List.mem_cons_self
      · exact (h3 e he).imp (List.mem_cons_of_mem _) id

theorem QueueFrom.merge {r : AnnReq} {q : List Entry} {k : Nat} {x : List Entry × Option Count}
    (h : mergeIn r (q.drop k) = some x) : QueueFrom q (q.take k ++ x.1) := by
  obtain ⟨h1, h2, h3⟩ := mergeIn_spec r _ h
  refine ⟨.inl ?_, ?_, fun e he => ?_⟩
  · simp [h1]; omega
  · rw [List.countP_append, h2, ← List.countP_append, List.take_append_drop]
  · rcases List.mem_append.1 he with he | he
    · exact .inl (List.mem_of_mem_take he)
    · exact (h3 e he).imp List.mem_of_mem_drop id

/-! ## The operations, each a chain -/

theorem notifyOrigin_steps (p : Option Port) (b : NoticeBody) (s : State) : QueueSteps s (notifyOrigin p b s) := by
  cases p with
  | none => exact QueueSteps.rfl'
  | some p => exact (QueueStep.notice p b s).one

theorem clearStated_steps (g : GroupNo) (s : State) : QueueSteps s (clearStated g s) :=
  QueueStep.one (QueueStep.record g (fun r => { r with stated := none }) s (fun _ => rfl) (fun _ => rfl))

theorem setDue_steps (g : GroupNo) (b : Bool) (s : State) : QueueSteps s (setDue g b s) :=
  QueueStep.one (QueueStep.record g (fun r => { r with due := b }) s (fun _ => rfl) (fun _ => rfl))

theorem unmarkCompleted_steps (g : GroupNo) (a : Count) (s : State) : QueueSteps s (unmarkCompleted g a s) :=
  (QueueStep.marks _ s (fun e => by split <;> rfl)).one

theorem moveMark_steps (g : GroupNo) (a : Option Count) (m : Mark) (s : State) : QueueSteps s (moveMark g a m s) := by
  cases a with
  | none => exact QueueSteps.rfl'
  | some a => exact (QueueStep.marks _ s (fun e => by split <;> rfl)).one

theorem clearNext_steps (g : GroupNo) (s : State) : QueueSteps s (clearNext g s) := by
  unfold clearNext
  split
  · exact Relation.ReflTransGen.trans
      (QueueStep.one (QueueStep.record g (fun r => { r with next := none }) s (fun _ => rfl) (fun _ => rfl)))
      (unmarkCompleted_steps _ _ _)
  · exact QueueSteps.rfl'

theorem applyNext_steps (g : GroupNo) (s : State) : QueueSteps s (applyNext g s) := by
  unfold applyNext
  split
  · rename_i n _
    split
    · exact QueueStep.one (QueueStep.record g
        (fun r => { r with stated := some { setting := n.setting, stamp := n.stamp }, next := none }) s (fun _ => rfl)
        (fun _ => rfl))
    · exact QueueSteps.rfl'
  · exact QueueSteps.rfl'

theorem reportCutShort_steps (a : Ann) (s : State) : QueueSteps s (reportCutShort a s) :=
  ((((QueueStep.abandon a.group s).one.trans (notifyOrigin_steps _ _ _)).trans (clearStated_steps _ _)).trans
    (clearNext_steps _ _)).trans (moveMark_steps _ _ _ _)

theorem cutShort_steps (g : GroupNo) (s : State) : QueueSteps s (cutShort g s).1 :=
  (QueueStep.queue _ s (.of_sublist List.filter_sublist)).one.trans
    (QueueSteps.foldl _ (fun s e => by
      cases e with
      | ann a => exact reportCutShort_steps a s
      | order o => exact QueueSteps.rfl'
      | fence p => exact QueueSteps.rfl') _ _)

theorem place_steps (r : AnnReq) (n : Nat) (s : State) : QueueSteps s (place r n s).state := by
  unfold place
  cases hm : mergeIn r (s.disp.queue.drop (lastSegmentStart s.disp.queue)) with
  | some x =>
    simp only [hm]
    exact (QueueStep.queue _ s (.merge hm)).one.trans (moveMark_steps _ _ _ _)
  | none =>
    simp only [hm]
    by_cases hp : placeFree s = true
    · simp only [hp, if_true]
      exact (QueueStep.queue _ s (.append (by simpa [placeFree] using hp) rfl)).one
    · simp only [hp]
      cases r.activation with
      | none => exact setDue_steps _ _ _
      | some _ => exact QueueSteps.rfl'

theorem request_steps (r : AnnReq) (s : State) : QueueSteps s (request r s).state := by
  unfold request
  split
  · exact QueueSteps.rfl'
  · exact (cutShort_steps _ _).trans (place_steps _ _ _)

theorem check_steps (g : GroupNo) (s : State) : QueueSteps s (check g s).state := by
  unfold check
  simp only
  split
  · exact applyNext_steps g s
  · split
    · exact (applyNext_steps g s).trans (request_steps _ _)
    · exact applyNext_steps g s

theorem checkUnlessLeft_steps (g : GroupNo) (s : State) : QueueSteps s (checkUnlessLeft g s).state := by
  unfold checkUnlessLeft
  split
  · exact QueueSteps.rfl'
  · exact check_steps g s

/-- What the events still to act leave: `afterEvents` in the words of `EventsLeave`. -/
theorem eventsLeave_of {g : GroupNo} {s : State} {f : Setting} (h : owesEvent g s = true)
    (hf : effectiveOf (afterEvents g s) = some f) : EventsLeave s.count g s f (topOrigin (afterEvents g s)) := by
  have hr : (fun e : SchedEntry => decide (e.group = g ∧ e.activation ≤ s.count)) = isReached g s.count :=
    funext fun e => by simp [isReached]
  refine ⟨le_refl _, ?_, ?_⟩
  · simp only [owesEvent, Bool.or_eq_true, List.any_eq_true, isReached, Bool.and_eq_true, decide_eq_true_eq] at h
    refine h.imp (fun ⟨o, ho, hx⟩ => ?_) id
    cases he : o.expiry with
    | none => simp [isExpired, expiryPast, he] at hx
    | some v => exact ⟨o, ho, v, he, by simpa [isExpired, expiryPast, he] using hx⟩
  · unfold afterEvents at hf ⊢
    cases hh : (s.group g).holding with
    | inactive => simp [hh, effectiveOf] at hf
    | active b os =>
      refine ⟨b, os, rfl, ?_⟩
      simp only [hh, isExpired, hr] at hf ⊢
      generalize os.filter (fun o => !expiryPast o.expiry s.count) = ks at hf ⊢
      generalize (s.schedule.filter (isReached g s.count)).getLast? = z at hf ⊢
      cases ks <;> cases z <;> simp_all [effectiveOf, topOrigin]

/-- The model's test for a check left to events still to act says what `LeftToEvents` does. -/
theorem leftToEvents_spec {g : GroupNo} {s : State} (h : leftToEvents g s = true) : LeftToEvents g s := by
  unfold leftToEvents at h
  cases hf : effectiveOf (afterEvents g s) with
  | none => simp [hf] at h
  | some f =>
    simp only [hf, Bool.and_eq_true, Bool.or_eq_true, decide_eq_true_eq, Option.map_eq_some_iff] at h
    refine ⟨_, f, _, eventsLeave_of h.1 hf, h.2.imp id fun hc => ?_⟩
    simp only [carried, Bool.or_eq_true, List.any_eq_true] at hc
    rcases hc with ⟨e, he, hm⟩ | ⟨e, he, hm⟩
    · cases e with
      | ann a =>
        simp only [isMatching, Bool.and_eq_true, decide_eq_true_eq] at hm
        exact ⟨a, he, hm.1.1.1, hm.1.1.2, hm.2, fun v hv => by simp [hm.1.2] at hv⟩
      | order o => simp [isMatching] at hm
      | fence p => simp [isMatching] at hm
    · cases e with
      | ann a =>
        simp only [absorbs, Bool.and_eq_true, decide_eq_true_eq] at hm
        refine ⟨a, he, hm.1.1.1, hm.1.1.2, hm.1.2, fun v hv => ?_⟩
        simpa [hv] using hm.2
      | order o => simp [absorbs] at hm
      | fence p => simp [absorbs] at hm

/-- The model's test for a check left so that its request has the origin of the last top layer says what `LeftForOrigin` does. -/
theorem originLeft_spec {g : GroupNo} {s : State} (ha : isActive (s.group g).holding = true) (h : originLeft g s = true) :
    LeftForOrigin g s := by
  simp only [originLeft, Bool.and_eq_true, decide_eq_true_eq] at h
  obtain ⟨f, hf⟩ : ∃ f, effectiveOf (s.group g).holding = some f := by
    cases hh : (s.group g).holding with
    | inactive => simp [hh, isActive] at ha
    | active b os => cases os <;> exact ⟨_, rfl⟩
  exact ⟨_, f, _, eventsLeave_of h.1.1 (h.1.2.trans hf), hf, fun e => h.2 e.symm⟩

/-- The check after a timer of a group is the check of R8, or is left to the events that are still to act. -/
theorem checkAfter_cases (g : GroupNo) (s : State) :
    checkAfter g s = check g (applyNext g s)
      ∨ (originLeft g (applyNext g s) = true ∨ leftToEvents g (applyNext g s) = true)
        ∧ checkAfter g s = ⟨applyNext g s, false, 0⟩ := by
  unfold checkAfter checkUnlessLeft
  simp only
  split
  · rename_i h; exact .inr ⟨.inl h, rfl⟩
  · split
    · rename_i h; exact .inr ⟨.inr h, rfl⟩
    · exact .inl rfl

theorem checkAfter_steps (g : GroupNo) (s : State) : QueueSteps s (checkAfter g s).state := by
  rcases checkAfter_cases g s with h | ⟨-, h⟩ <;> rw [h]
  · exact (applyNext_steps g s).trans (check_steps g _)
  · exact applyNext_steps g s

/-- The check after a completion is the check of R8, or is left, with the base on top, to the activations still to act. -/
theorem checkCompleted_cases (g : GroupNo) (s : State) :
    checkCompleted g s = check g s
      ∨ overridesOf (s.group g).holding = [] ∧ checkCompleted g s = checkUnlessLeft g (applyNext g s) := by
  unfold checkCompleted
  split
  · rename_i h; exact .inr ⟨List.isEmpty_iff.1 h, rfl⟩
  · exact .inl rfl

theorem checkCompleted_steps (g : GroupNo) (s : State) : QueueSteps s (checkCompleted g s).state := by
  unfold checkCompleted
  split
  · exact (applyNext_steps g s).trans (checkUnlessLeft_steps g _)
  · exact check_steps g s

theorem spaceNotice_steps (p : Port) (s : State) : QueueSteps s (spaceNotice p s) := by
  unfold spaceNotice
  split
  · exact (QueueStep.space _ s).one.trans (QueueStep.notice _ _ _).one
  · exact QueueSteps.rfl'

theorem queueSpace_steps (s : State) : QueueSteps s (queueSpace s) := by
  unfold queueSpace
  split
  · exact (spaceNotice_steps _ _).trans (spaceNotice_steps _ _)
  · exact QueueSteps.rfl'

theorem offerPlaces_steps (k n : Nat) (s : State) : QueueSteps s (offerPlaces k n s) := by
  induction k generalizing n s with
  | zero => exact QueueSteps.rfl'
  | succ k ih =>
    unfold offerPlaces
    split
    · exact QueueSteps.rfl'
    · split
      · exact QueueSteps.rfl'
      · exact ((setDue_steps _ _ _).trans (check_steps _ _)).trans (ih _ _)

theorem afterFreed_steps (n : Nat) (s : State) : QueueSteps s (afterFreed n s) := by
  unfold afterFreed
  split
  · exact QueueSteps.rfl'
  · exact (offerPlaces_steps _ _ _).trans (queueSpace_steps _)

theorem advance1_steps {s t : State} (h : advance1 s = some t) : QueueSteps s t := by
  unfold advance1 at h
  simp only at h
  split at h
  · rename_i i hi
    split at h
    · rename_i o ho
      obtain rfl := Option.some.inj h
      have h8 : s.exch.table.length < 8 := by
        by_contra hc
        simp [hc] at hi
      refine (QueueStep.queue _ s (.of_sublist (List.eraseIdx_sublist _ _))).one.trans
        (Relation.ReflTransGen.trans (QueueStep.one (QueueStep.exchanges _ _ (.inr ?_))) (afterFreed_steps _ _))
      simpa [setQueue] using h8
    · cases h
  · split at h
    · split at h
      · cases h
      · rename_i p es hq _
        obtain rfl := Option.some.inj h
        refine (QueueStep.queue _ s (.of_sublist ?_)).one.trans (afterFreed_steps _ _)
        rw [hq]
        exact List.sublist_cons_self _ _
    · cases h

theorem advanceN_steps (k : Nat) (s : State) : QueueSteps s (advanceN k s) := by
  induction k generalizing s with
  | zero => exact QueueSteps.rfl'
  | succ k ih =>
    unfold advanceN
    split
    · rename_i t h; exact (advance1_steps h).trans (ih t)
    · exact QueueSteps.rfl'

theorem settleWait_steps (p : Port) (s : State) : QueueSteps s (settleWait p s) := by
  unfold settleWait
  split
  · rename_i w h
    split
    · exact (QueueStep.wait p w true s h).one
    · exact QueueSteps.rfl'
  · exact QueueSteps.rfl'

theorem settleWaits_steps (s : State) : QueueSteps s (settleWaits s) :=
  (settleWait_steps _ _).trans (settleWait_steps _ _)

/-- The end of an event is a chain of small steps. -/
theorem closeEvent_steps (n : Nat) (s : State) : QueueSteps s (closeEvent n s) :=
  ((afterFreed_steps _ _).trans (advanceN_steps _ _)).trans (settleWaits_steps _)

theorem advanceAll_steps (s : State) : QueueSteps s (advanceAll s) := advanceN_steps _ _

/-- The end of a departure is a chain of small steps. -/
theorem closeDeparture_steps (n : Nat) (s : State) : QueueSteps s (closeDeparture n s) :=
  (((offerPlaces_steps _ _ _).trans (queueSpace_steps _)).trans (advanceAll_steps _)).trans (settleWaits_steps _)

theorem bringUp_steps (g : GroupNo) (s : State) : QueueSteps s (bringUp g s).state := by
  unfold bringUp
  split
  · exact (applyNext_steps g s).trans (checkUnlessLeft_steps g _)
  · exact QueueSteps.rfl'

theorem catchUp_steps (g : GroupNo) (o : Option Port) (s : State) : QueueSteps s (catchUp g o s).state := by
  unfold catchUp
  simp only
  split
  · exact bringUp_steps g s
  · split
    · exact (bringUp_steps g s).trans (check_steps _ _)
    · split
      · rename_i hp
        refine (bringUp_steps g s).trans (QueueStep.queue _ _ (.append ?_ rfl)).one
        simp only [placeFree, Bool.and_eq_true, decide_eq_true_eq] at hp
        exact hp.2
      · exact bringUp_steps g s

theorem testEntry_steps (e : SchedEntry) (s : State) : QueueSteps s (testEntry e s) := by
  unfold testEntry
  split
  · simp only
    split
    · exact (request_steps _ _).trans (QueueStep.marks _ _ (fun f => by split <;> rfl)).one
    · exact request_steps _ _
  · exact QueueSteps.rfl'

theorem testEntries_steps (sel : SchedEntry → Bool) (s : State) : QueueSteps s (testEntries sel s) :=
  QueueSteps.foldl _ (fun s e => testEntry_steps e s) _ _

theorem testGroup_steps (g : GroupNo) (s : State) : QueueSteps s (testGroup g s) := testEntries_steps _ _

theorem withdraw_steps (g : GroupNo) (sel : Ann → Bool) (s : State) : QueueSteps s (withdraw g sel s).1 :=
  (QueueStep.queue _ s (.of_sublist List.filter_sublist)).one.trans
    (QueueSteps.foldl _ (fun s e => by
      cases e with
      | ann a => exact moveMark_steps _ _ _ _
      | order o => exact QueueSteps.rfl'
      | fence p => exact QueueSteps.rfl') _ _)

theorem endWaitOn_steps (p : Port) (g : GroupNo) (s : State) : QueueSteps s (endWaitOn p g s) := by
  unfold endWaitOn
  split
  · rename_i w h
    split
    · rename_i hg; subst hg; exact (QueueStep.wait p w false s h).one
    · exact QueueSteps.rfl'
  · exact QueueSteps.rfl'

theorem limitWait_steps (p : Port) (s : State) : QueueSteps s (limitWait p s) := by
  unfold limitWait
  split
  · rename_i w h
    split
    · exact (QueueStep.wait p w false s h).one
    · exact QueueSteps.rfl'
  · exact QueueSteps.rfl'

/-! ## The exchange table -/

theorem updExch_steps (t : Tag) (f : Exchange → Exchange) (s : State) : QueueSteps s (updExch t f s) :=
  (QueueStep.exchanges _ s (.inl (by simp))).one

theorem joinReady_steps (t : Tag) (s : State) : QueueSteps s (joinReady t s) :=
  (QueueStep.exchanges _ s (.inl (by simp))).one

theorem leaveReady_steps (t : Tag) (s : State) : QueueSteps s (leaveReady t s) :=
  (QueueStep.exchanges _ s (.inl (by simp))).one

theorem dropExch_steps (x : Exchange) (e : Ending) (r : Option Reply) (c : Option Comparison) (s : State) :
    QueueSteps s (dropExch x e r c s) :=
  (QueueStep.notice _ _ _).one.trans (QueueStep.exchanges _ _ (.inl (List.length_filter_le _ _))).one

/-- R155: an ending other than UNREACHED leaves the Route Cache alone. -/
theorem endExch_steps (x : Exchange) {e : Ending} (h : e ≠ .unreached) (s : State) : QueueSteps s (endExch x e s) := by
  simp only [endExch, h, if_false]
  exact dropExch_steps _ _ _ _ _

theorem toReady_steps (x : Exchange) (f : Exchange → Exchange) (s : State) : QueueSteps s (toReady x f s) :=
  (updExch_steps _ _ _).trans (joinReady_steps _ _)

theorem exchWholeEnd_steps (t : Tag) (e : Count) (s : State) : QueueSteps s (exchWholeEnd t e s) := by
  unfold exchWholeEnd
  split
  · simp only
    split
    · exact endExch_steps _ (by decide) _
    · exact updExch_steps _ _ _
  · exact QueueSteps.rfl'

theorem exchAbandoned_steps (t : Tag) (s : State) : QueueSteps s (exchAbandoned t s) := by
  unfold exchAbandoned
  split
  · split
    · exact endExch_steps _ (by decide) _
    · exact toReady_steps _ _ _
  · exact QueueSteps.rfl'

theorem deferExch_steps (x : Exchange) (s : State) : QueueSteps s (deferExch x s) := by
  unfold deferExch
  split
  · exact endExch_steps _ (by decide) _
  · exact (updExch_steps _ _ _).trans (leaveReady_steps _ _)

theorem acceptQuery_steps (x : Exchange) (g : GroupNo) (r : Reply) (s : State) :
    QueueSteps s (acceptQuery x g r s).state := by
  unfold acceptQuery
  simp only
  split
  · exact (catchUp_steps _ _ _).trans (dropExch_steps _ _ _ _ _)
  · exact dropExch_steps _ _ _ _ _

/-- R146 to R148: an ANSWER does a chain of small steps. -/
theorem takeAnswer_steps (a : Answer) (s : State) : QueueSteps s (takeAnswer a s).state := by
  unfold takeAnswer
  split
  · exact QueueSteps.rfl'
  · split
    · exact QueueSteps.rfl'
    · split
      · split
        · exact acceptQuery_steps _ _ _ _
        · exact QueueSteps.rfl'
        · exact endExch_steps _ (by decide) _
        · exact endExch_steps _ (by decide) _
        · exact QueueSteps.rfl'
      · exact endExch_steps _ (by decide) _
      · exact deferExch_steps _ _
      · exact QueueSteps.rfl'

theorem cancelExch_steps (x : Exchange) (s : State) : QueueSteps s (cancelExch x s) := by
  unfold cancelExch
  split
  · exact updExch_steps _ _ _
  · exact endExch_steps _ (by decide) _
  · exact endExch_steps _ (by decide) _
  · exact endExch_steps _ (by decide) _

/-! ## Departures whose group asks too: a chain, after the draw of the order that R65 leaves open -/

/-- A chain of small steps with at most one draw of an order in it (log 12). -/
def DrawnSteps (s t : State) : Prop :=
  ∃ u n, QueueSteps s u ∧ (n = u.choices ∨ n = u.choices + 1) ∧ QueueSteps (u.setChoices n) t

theorem QueueSteps.drawn {s t : State} (h : QueueSteps s t) : DrawnSteps s t := ⟨s, s.choices, QueueSteps.rfl', .inl rfl, h⟩

theorem DrawnSteps.then {s t u : State} (h : DrawnSteps s t) (k : QueueSteps t u) : DrawnSteps s u := by
  obtain ⟨v, n, hv, hn, h⟩ := h
  exact ⟨v, n, hv, hn, h.trans k⟩

theorem QueueSteps.before {s t u : State} (h : QueueSteps s t) (k : DrawnSteps t u) : DrawnSteps s u := by
  obtain ⟨v, n, hv, hn, k⟩ := k
  exact ⟨v, n, h.trans hv, hn, k⟩

/-- R65: the order is drawn only where the group's own request and a due admission meet. -/
theorem dueFirst_cases (made : Bool) (s : State) :
    dueFirst made s = (false, s)
      ∨ made = true ∧ (lowestDue s).isSome = true
        ∧ dueFirst made s = (Config.orderChoice s.choices, s.setChoices (s.choices + 1)) := by
  unfold dueFirst
  split
  · rename_i h
    simp only [Bool.and_eq_true] at h
    exact .inr ⟨h.1, h.2, rfl⟩
  · exact .inl rfl

theorem dueFirst_steps (made : Bool) (s : State) : DrawnSteps s (dueFirst made s).2 := by
  rcases dueFirst_cases made s with h | ⟨-, -, h⟩ <;> rw [h]
  · exact QueueSteps.rfl'.drawn
  · exact ⟨s, _, QueueSteps.rfl', .inr rfl, QueueSteps.rfl'⟩

theorem checkAndOffer_steps (g : GroupNo) (n : Nat) (s : State) : DrawnSteps s (checkAndOffer g n s).state := by
  unfold checkAndOffer
  simp only
  split
  · exact (dueFirst_steps _ s).then ((offerPlaces_steps _ _ _).trans (check_steps _ _))
  · exact (dueFirst_steps _ s).then (check_steps _ _)

theorem closeWithdrawal_steps (e : SchedEntry) (n : Nat) (s : State) : DrawnSteps s (closeWithdrawal e n s) := by
  unfold closeWithdrawal
  split
  · exact (checkAndOffer_steps _ n s).then ((testGroup_steps _ _).trans (closeDeparture_steps _ _))
  · exact QueueSteps.drawn ((testGroup_steps _ _).trans (closeDeparture_steps _ _))

theorem settleDebt_steps (e : SchedEntry) (s : State) : QueueSteps s (settleDebt e s) := by
  unfold settleDebt
  split
  · exact ((applyNext_steps _ _).trans (checkUnlessLeft_steps _ _)).trans (closeEvent_steps _ _)
  · exact QueueSteps.rfl'

/-- R38: a withdrawal of a schedule entry is a chain of small steps with at most one draw. -/
theorem withdrawEffects_steps (e : SchedEntry) (s : State) : DrawnSteps s (withdrawEffects e s) := by
  unfold withdrawEffects
  split
  · exact (settleDebt_steps _ _).drawn
  · split
    · exact (withdraw_steps _ _ _).before (closeWithdrawal_steps _ _ _)
    · split
      · exact (cutShort_steps _ _).before ((checkAndOffer_steps _ _ _).then
          ((testGroup_steps _ _).trans (closeDeparture_steps _ _)))
      · exact (settleDebt_steps _ _).drawn
  · exact QueueSteps.drawn ((((clearStated_steps _ _).trans (clearNext_steps _ _)).trans (check_steps _ _)).trans
      (closeEvent_steps _ _))

end Sys2Proof.Machine
end

