-- ==== Sys2Proof/Laws/Keeps.lean ====
section
/-! SUPPORT. What a chain of the Dispatcher's small steps leaves alone, said once (`Keeps`), and what it may do to the
blocks it changes. -/

namespace Sys2Proof.Machine

theorem Keeps.rfl' (s : State) : Keeps s s :=
  ⟨rfl, rfl, rfl, rfl, rfl, rfl, rfl, rfl, rfl, rfl, fun _ => rfl, fun _ => rfl, rfl, rfl, fun _ => rfl, fun _ => rfl,
    fun _ => rfl, fun _ => rfl, fun _ => rfl, fun _ => rfl⟩

theorem Keeps.trans {s t u : State} (h : Keeps s t) (k : Keeps t u) : Keeps s u where
  time := k.time.trans h.time
  routes := k.routes.trans h.routes
  rx := k.rx.trans h.rx
  conf := k.conf.trans h.conf
  choices := k.choices.trans h.choices
  pending := k.pending.trans h.pending
  quiet := k.quiet.trans h.quiet
  busy := k.busy.trans h.busy
  claimOpen := k.claimOpen.trans h.claimOpen
  backoffEnd := k.backoffEnd.trans h.backoffEnd
  holding g := (k.holding g).trans (h.holding g)
  stampCounter g := (k.stampCounter g).trans (h.stampCounter g)
  schedule := k.schedule.trans h.schedule
  heldBack := k.heldBack.trans h.heldBack
  mask p := (k.mask p).trans (h.mask p)
  summary p := (k.summary p).trans (h.summary p)
  record p := (k.record p).trans (h.record p)
  noticeMask p := (k.noticeMask p).trans (h.noticeMask p)
  overrun p := (k.overrun p).trans (h.overrun p)
  dataOut p := (k.dataOut p).trans (h.dataOut p)

/-- A change of one controller that leaves its masks, its conditions, its overrun marker and its output alone. -/
theorem Keeps.of_updPort (p : Port) (f : PortCtl → PortCtl) (s : State)
    (h : ∀ c, (f c).mask = c.mask ∧ (f c).summary = c.summary ∧ (f c).record = c.record
      ∧ (f c).noticeMask = c.noticeMask ∧ (f c).overrun = c.overrun ∧ (f c).dataOut = c.dataOut) :
    Keeps s (updPort p f s) := by
  have hp : ∀ q, (updPort p f s).port q = if q = p then f (s.port p) else s.port q := fun q => updPort_port p q f s
  refine ⟨rfl, rfl, rfl, rfl, rfl, rfl, rfl, rfl, rfl, rfl, fun _ => rfl, fun _ => rfl, rfl, rfl, ?_, ?_, ?_, ?_, ?_, ?_⟩ <;>
  · intro q
    rw [hp]
    split
    · rename_i e; subst e; simp [h]
    · rfl

theorem notify_keeps (p : Port) (b : NoticeBody) (s : State) : Keeps s (notify p b s) :=
  Keeps.of_updPort p _ s fun c => by
    have := arrive_keeps c s.count b
    exact ⟨this.2.2.2.2.1, this.2.2.2.2.2.1, this.2.2.2.2.2.2.1, this.2.2.2.2.2.2.2.1, this.2.2.2.1, this.2.2.2.2.2.2.2.2⟩

theorem respond_keeps (p : Port) (r : Response) (s : State) : Keeps s (respond p r s) :=
  Keeps.of_updPort p _ s fun _ => ⟨rfl, rfl, rfl, rfl, rfl, rfl⟩

theorem reply_keeps (p : Port) (k : ReqKind) (o : ReqOutcome) (b : ResponseBody) (s : State) :
    Keeps s (reply p k o b s) := respond_keeps _ _ _

theorem abandonFor_keeps (g : GroupNo) (s : State) : Keeps s (abandonFor g s) := by
  unfold abandonFor
  split
  · split
    · exact ⟨rfl, rfl, rfl, rfl, rfl, rfl, rfl, rfl, rfl, rfl, fun _ => rfl, fun _ => rfl, rfl, rfl, fun _ => rfl, fun _ => rfl,
        fun _ => rfl, fun _ => rfl, fun _ => rfl, fun _ => rfl⟩
    · exact Keeps.rfl' s
  · exact Keeps.rfl' s

/-- What a small step leaves alone. -/
theorem QueueStep.frame {s t : State} (h : QueueStep s t) : Keeps s t := by
  cases h with
  | notice p b _ => exact notify_keeps p b s
  | wait p w m _ h =>
    refine Keeps.trans (t := s.setWaits (s.waits.set p none)) ?_ (respond_keeps _ _ _)
    exact ⟨rfl, rfl, rfl, rfl, rfl, rfl, rfl, rfl, rfl, rfl, fun _ => rfl, fun _ => rfl, rfl, rfl, fun _ => rfl, fun _ => rfl,
      fun _ => rfl, fun _ => rfl, fun _ => rfl, fun _ => rfl⟩
  | queue q _ h =>
    exact ⟨rfl, rfl, rfl, rfl, rfl, rfl, rfl, rfl, rfl, rfl, fun _ => rfl, fun _ => rfl, rfl, rfl, fun _ => rfl, fun _ => rfl,
      fun _ => rfl, fun _ => rfl, fun _ => rfl, fun _ => rfl⟩
  | record g f _ h k =>
    refine ⟨rfl, rfl, rfl, rfl, rfl, rfl, rfl, rfl, rfl, rfl, fun x => ?_, fun x => ?_, rfl, rfl, fun _ => rfl, fun _ => rfl,
      fun _ => rfl, fun _ => rfl, fun _ => rfl, fun _ => rfl⟩
    · rw [updGroup_group]; split
      · rename_i e; subst e; exact h _
      · rfl
    · rw [updGroup_group]; split
      · rename_i e; subst e; exact k _
      · rfl
  | marks f _ h =>
    refine ⟨rfl, rfl, rfl, rfl, rfl, rfl, rfl, rfl, rfl, rfl, fun _ => rfl, fun _ => rfl, ?_, rfl, fun _ => rfl, fun _ => rfl,
      fun _ => rfl, fun _ => rfl, fun _ => rfl, fun _ => rfl⟩
    simp [List.map_map, Function.comp_def, h]
  | abandon g _ => exact abandonFor_keeps g s
  | space m _ =>
    exact ⟨rfl, rfl, rfl, rfl, rfl, rfl, rfl, rfl, rfl, rfl, fun _ => rfl, fun _ => rfl, rfl, rfl, fun _ => rfl, fun _ => rfl,
      fun _ => rfl, fun _ => rfl, fun _ => rfl, fun _ => rfl⟩
  | exchanges x _ h =>
    exact ⟨rfl, rfl, rfl, rfl, rfl, rfl, rfl, rfl, rfl, rfl, fun _ => rfl, fun _ => rfl, rfl, rfl, fun _ => rfl, fun _ => rfl,
      fun _ => rfl, fun _ => rfl, fun _ => rfl, fun _ => rfl⟩

/-- What every chain of small steps leaves alone. -/
theorem QueueSteps.frame {s t : State} (h : QueueSteps s t) : Keeps s t :=
  QueueSteps.keeps (P := Keeps s) (fun _ _ h k => k.trans h.frame) h (Keeps.rfl' s)

/-- The end of an event: what it leaves alone. -/
theorem closeEvent_keeps (n : Nat) (s : State) : Keeps s (closeEvent n s) := (closeEvent_steps n s).frame

/-- The end of a departure: what it leaves alone. -/
theorem closeDeparture_keeps (n : Nat) (s : State) : Keeps s (closeDeparture n s) := (closeDeparture_steps n s).frame

/-- The convergence check: what it leaves alone. -/
theorem check_keeps (g : GroupNo) (s : State) : Keeps s (check g s).state := (check_steps g s).frame

/-- A request's end: what it leaves alone. -/
theorem finish_keeps (p : Port) (k : ReqKind) (o : ReqOutcome) (r : Asked) : Keeps r.state (finish p k o r) :=
  (closeEvent_keeps r.freed r.state).trans (reply_keeps _ _ _ _ _)

end Sys2Proof.Machine
end

