-- ==== Sys2Proof/Laws/Limits.lean ====
section
/-! SUPPORT. The limits of the state (`Inv`) and the agreement of the line's users (`LineInv`) under the Dispatcher's small
steps, and the pieces of them that each port operation keeps. -/

namespace Sys2Proof.Machine

/-! ## Port controllers -/

theorem PortOk.arrive {c : PortCtl} (h : PortOk c) (n : Count) (b : NoticeBody) : PortOk (c.arrive n b) := by
  have k := arrive_keeps c n b
  have l := arrive_limits c n b h.notices h.ordinary
  exact ⟨l.1, l.2.1, l.2.2, by rw [k.2.2.1, k.1]; exact h.slot, by rw [k.2.1, k.1]; exact h.inHand⟩

/-- R175: a controller that is handed a response is in order. -/
theorem PortOk.respond {c : PortCtl} (h : PortOk c) (r : Response) :
    PortOk { c with state := .answered, slot := some r, inHand := none } :=
  ⟨h.notices, h.ordinary, h.attention, by simp, by simp⟩

/-- R175: the owner takes the request in hand. -/
theorem PortOk.clearInHand {c : PortCtl} (h : PortOk c) : PortOk { c with inHand := none } :=
  ⟨h.notices, h.ordinary, h.attention, h.slot, by simp⟩

/-! ## The limits of the state under one port's change -/

/-- The limits that do not concern a port controller. -/
theorem Inv.of_ports {s t : State} (h : Inv s) (q : t.disp.queue = s.disp.queue) (x : t.exch.table = s.exch.table)
    (r : t.rx.receipts = s.rx.receipts) (e : t.schedule = s.schedule) (g : t.groups = s.groups) (m : t.time = s.time)
    (p : ∀ p, PortOk (t.port p))
    (w : ∀ p, (t.waits.get p).isSome = true → (t.port p).state = .working ∧ (t.port p).inHand = none) : Inv t where
  queue := by rw [q]; exact h.queue
  works := by rw [q]; exact h.works
  table := by rw [x]; exact h.table
  receipts := by rw [r]; exact h.receipts
  schedule := by rw [e]; exact h.schedule
  layers g' := by simpa [State.group, g] using h.layers g'
  history := by rw [m]; exact h.history
  ports := p
  waits := w

/-- A change of one controller that keeps it in order, and a wait of its port open, keeps the limits. -/
theorem Inv.updPort {s : State} (h : Inv s) (p : Port) (f : PortCtl → PortCtl) (ok : PortOk (f (s.port p)))
    (w : (s.waits.get p).isSome = true → (f (s.port p)).state = .working ∧ (f (s.port p)).inHand = none) :
    Inv (updPort p f s) := by
  refine h.of_ports rfl rfl rfl rfl rfl rfl (fun q => ?_) (fun q hq => ?_)
  · rw [updPort_port]; split
    · exact ok
    · exact h.ports q
  · rw [updPort_port]; split
    · rename_i e; subst e; exact w hq
    · exact h.waits q hq

theorem Inv.notify {s : State} (h : Inv s) (p : Port) (b : NoticeBody) : Inv (notify p b s) := by
  refine h.updPort p _ ((h.ports p).arrive _ _) (fun hw => ?_)
  have k := arrive_keeps (s.port p) s.count b
  rw [k.1, k.2.1]
  exact h.waits p hw

/-- R176: a response handed to a port with no wait open keeps the limits. -/
theorem Inv.respond {s : State} (h : Inv s) (p : Port) (r : Response) (w : s.waits.get p = none) : Inv (respond p r s) :=
  h.updPort p _ ((h.ports p).respond r) (by simp [w])

theorem Inv.reply {s : State} (h : Inv s) (p : Port) (k : ReqKind) (o : ReqOutcome) (b : ResponseBody)
    (w : s.waits.get p = none) : Inv (reply p k o b s) := h.respond p _ w

/-- R22: the answer to an open wait keeps the limits. -/
theorem Inv.answerWait {s : State} (h : Inv s) (p : Port) (g : GroupNo) (m : Bool) : Inv (answerWait p g m s) := by
  refine Inv.reply (s := s.setWaits (s.waits.set p none)) ?_ p _ _ _ (by simp)
  refine h.of_ports rfl rfl rfl rfl rfl rfl h.ports (fun q hq => ?_)
  by_cases e : q = p
  · subst e; simp at hq
  · rw [State.setWaits_waits, PerPort.get_set_ne _ _ e] at hq
    exact h.waits q hq

/-! ## The small steps -/

/-- Every small step of the Dispatcher keeps the limits. -/
theorem QueueStep.inv {s t : State} (h : QueueStep s t) (i : Inv s) : Inv t := by
  cases h with
  | notice p b _ => exact i.notify p b
  | wait p w m _ h => exact i.answerWait p _ m
  | queue q _ h =>
    exact
      { i with
        queue := h.length.elim (fun l => Nat.le_trans l i.queue) id
        works := Nat.le_trans h.works i.works }
  | record g f _ h k =>
    refine { i with layers := fun x => ?_ }
    have := i.layers x
    rw [updGroup_group]
    split
    · rename_i e; subst e; rw [h]; exact this
    · exact this
  | marks f _ h => exact { i with schedule := by simpa using i.schedule }
  | abandon g _ =>
    unfold abandonFor
    split
    · split
      · exact { i with }
      · exact i
    · exact i
  | space m _ => exact { i with }
  | exchanges x _ h => exact { i with table := h.elim (fun l => Nat.le_trans l i.table) id }

/-- Every chain of small steps keeps the limits. -/
theorem QueueSteps.inv {s t : State} (h : QueueSteps s t) (i : Inv s) : Inv t :=
  QueueSteps.keeps (fun _ _ h i => h.inv i) h i

/-- A port with no wait open: no small step changes its state, its slot or its request in hand. -/
structure Undisturbed (p : Port) (s t : State) : Prop where
  waits : t.waits.get p = none
  state : (t.port p).state = (s.port p).state
  slot : (t.port p).slot = (s.port p).slot
  inHand : (t.port p).inHand = (s.port p).inHand

theorem Undisturbed.trans {p : Port} {s t u : State} (h : Undisturbed p s t) (k : Undisturbed p t u) : Undisturbed p s u :=
  ⟨k.waits, k.state.trans h.state, k.slot.trans h.slot, k.inHand.trans h.inHand⟩

theorem notify_undisturbed {p : Port} {s : State} (w : s.waits.get p = none) (q : Port) (b : NoticeBody) :
    Undisturbed p s (notify q b s) := by
  have k := arrive_keeps (s.port q) s.count b
  have e : (notify q b s).port p = if p = q then (s.port q).arrive s.count b else s.port p := updPort_port _ _ _ _
  refine ⟨w, ?_, ?_, ?_⟩ <;>
  · rw [e]
    split
    · rename_i h; subst h; simp [k]
    · rfl

theorem QueueStep.undisturbed {s t : State} {p : Port} (h : QueueStep s t) (w : s.waits.get p = none) :
    Undisturbed p s t := by
  cases h with
  | notice q b _ => exact notify_undisturbed w q b
  | wait q v m _ h =>
    have hne : p ≠ q := by rintro rfl; rw [w] at h; cases h
    have e : (answerWait q v.group m s).port p = s.port p := by
      unfold answerWait reply respond
      exact updPort_port_ne _ _ hne
    exact ⟨(PerPort.get_set_ne _ _ hne).trans w, by rw [e], by rw [e], by rw [e]⟩
  | queue q _ h => exact ⟨w, rfl, rfl, rfl⟩
  | record g f _ h k => exact ⟨w, rfl, rfl, rfl⟩
  | marks f _ h => exact ⟨w, rfl, rfl, rfl⟩
  | abandon g _ =>
    unfold abandonFor
    split
    · split
      · exact ⟨w, rfl, rfl, rfl⟩
      · exact ⟨w, rfl, rfl, rfl⟩
    · exact ⟨w, rfl, rfl, rfl⟩
  | space m _ => exact ⟨w, rfl, rfl, rfl⟩
  | exchanges x _ h => exact ⟨w, rfl, rfl, rfl⟩

/-- No chain of small steps disturbs a port with no wait open. -/
theorem QueueSteps.undisturbed {s t : State} {p : Port} (h : QueueSteps s t) (w : s.waits.get p = none) :
    Undisturbed p s t :=
  QueueSteps.keeps (P := fun u => Undisturbed p s u) (fun _ _ h k => k.trans (h.undisturbed k.waits)) h ⟨w, rfl, rfl, rfl⟩

/-- The agreement of the line's users speaks of five parts of the state alone. -/
theorem LineInv.of_eq {s t : State} (i : LineInv s) (x : t.tx = s.tx) (a : t.arb.holder = s.arb.holder)
    (d : t.disp.sending = s.disp.sending) (m : t.time.state = s.time.state) (c : t.conf.station = s.conf.station) :
    LineInv t where
  frame := by rw [x]; exact i.frame
  backoff := by rw [x]; exact i.backoff
  holder := by rw [x, a]; exact i.holder
  sending := by rw [d, a]; exact i.sending
  announcing := by rw [d, a]; exact i.announcing
  mains := by rw [m, x]; exact i.mains
  station := by rw [c, x]; exact i.station

/-- R118: the abandonment of the frame of a departing entry keeps the agreement. -/
theorem LineInv.abandonFor {s : State} (i : LineInv s) (g : GroupNo) : LineInv (abandonFor g s) := by
  unfold Machine.abandonFor
  split
  · rename_i t ht
    split
    · have hh := i.sending t ht
      have hs : s.tx.state = .sending := by
        by_contra hc
        have := i.holder.2 hc
        rw [hh] at this
        cases this
      have hb : s.tx.backoffEnd = none := by
        have := i.backoff
        rw [hs] at this
        simpa using this
      have hm : s.time.state = .present := by
        by_contra hc
        have := i.mains hc
        rw [hs] at this
        cases this
      refine ⟨?_, ?_, ?_, ?_, ?_, ?_, ?_⟩
      · simp [restState]; split <;> simp
      · simp [hb, restState]; split <;> simp
      · simp [restState]; split <;> simp
      · simp
      · simp
      · intro hc; exact absurd hm hc
      · intro hc
        have hc' : s.conf.station = 0 := hc
        left; simp [restState, hc']
    · exact i
  · exact i

/-- Every small step of the Dispatcher keeps the agreement of the line's users. -/
theorem QueueStep.lineInv {s t : State} (h : QueueStep s t) (i : LineInv s) : LineInv t := by
  cases h with
  | notice p b _ => exact i.of_eq rfl rfl rfl rfl rfl
  | wait p w m _ h => exact i.of_eq rfl rfl rfl rfl rfl
  | queue q _ h => exact i.of_eq rfl rfl rfl rfl rfl
  | record g f _ h k => exact i.of_eq rfl rfl rfl rfl rfl
  | marks f _ h => exact i.of_eq rfl rfl rfl rfl rfl
  | abandon g _ => exact i.abandonFor g
  | space m _ => exact i.of_eq rfl rfl rfl rfl rfl
  | exchanges x _ h => exact i.of_eq rfl rfl rfl rfl rfl

/-- Every chain of small steps keeps the agreement of the line's users. -/
theorem QueueSteps.lineInv {s t : State} (h : QueueSteps s t) (i : LineInv s) : LineInv t :=
  QueueSteps.keeps (fun _ _ h i => h.lineInv i) h i

end Sys2Proof.Machine
end

