-- ==== Sys2Proof/Laws/Moves.lean ====
section
/-! SUPPORT. Moves and fence departures: when none is due, and that `advanceAll` leaves none. -/

namespace Sys2Proof.Machine

/-- A fence ends the look-ahead window, and an announcement entry is passed over: no order is movable exactly when each order in
the window has a fence ahead. -/
theorem movable_none_iff (k : Nat) (q : List Entry) :
    movable k q = none ↔ ∀ ahead o behind, q = ahead ++ .order o :: behind → ahead.length < k →
      ∃ e ∈ ahead, isFence e = true := by
  induction q generalizing k with
  | nil => cases k <;> simp [movable]
  | cons e es ih =>
    cases k with
    | zero => simp [movable]
    | succ k =>
      cases e with
      | fence p =>
        refine ⟨fun _ ahead o behind h _ => ?_, fun _ => rfl⟩
        cases ahead with
        | nil => simp at h
        | cons a as =>
          simp only [List.cons_append, List.cons.injEq] at h
          exact ⟨a, by simp, by rw [← h.1]; rfl⟩
      | order o =>
        refine ⟨fun h => by simp [movable] at h, fun h => ?_⟩
        obtain ⟨e, he, _⟩ := h [] o es rfl (by simp)
        simp at he
      | ann a =>
        simp only [movable, Option.map_eq_none_iff, ih k]
        constructor
        · intro h ahead o behind hq hl
          cases ahead with
          | nil => simp at hq
          | cons b bs =>
            simp only [List.cons_append, List.cons.injEq] at hq
            obtain ⟨e, he, hf⟩ := h bs o behind hq.2 (by simpa using hl)
            exact ⟨e, by simp [he], hf⟩
        · intro h ahead o behind hq hl
          obtain ⟨e, he, hf⟩ := h (.ann a :: ahead) o behind (by rw [hq]; rfl) (by simpa using hl)
          rcases List.mem_cons.1 he with rfl | he
          · simp [isFence] at hf
          · exact ⟨e, he, hf⟩

/-- What is movable is an order of the queue. -/
theorem movable_order (k : Nat) (q : List Entry) {i : Nat} (h : movable k q = some i) : ∃ o, q[i]? = some (.order o) := by
  induction q generalizing k i with
  | nil => cases k <;> simp [movable] at h
  | cons e es ih =>
    cases k with
    | zero => simp [movable] at h
    | succ k =>
      cases e with
      | fence p => simp [movable] at h
      | order o =>
        obtain rfl : 0 = i := by simpa [movable] using h
        exact ⟨o, rfl⟩
      | ann a =>
        obtain ⟨j, hj, rfl⟩ : ∃ j, movable k es = some j ∧ j + 1 = i := by simpa [movable] using h
        simpa using ih k hj

/-- R73, R75: no departure of the Dispatcher's own is due exactly when nothing is left undone. -/
theorem advance1_none_iff (s : State) : advance1 s = none ↔ MovesInv s := by
  have hm := movable_none_iff 4 s.disp.queue
  unfold advance1
  by_cases h8 : s.exch.table.length < 8
  · simp only [h8, if_true]
    cases hq : movable 4 s.disp.queue with
    | some i =>
      obtain ⟨o, ho⟩ := movable_order 4 _ hq
      simp only [ho, reduceCtorEq, false_iff]
      intro m
      have := hm.2 (m.orders h8)
      rw [hq] at this
      cases this
    | none =>
      refine ⟨fun h => ⟨fun _ => hm.1 hq, fun p behind hb => ?_⟩, fun m => ?_⟩
      · simp only [hb] at h
        by_contra hc
        have : s.exch.table.any (·.fenceMark) = false := by simpa using hc
        simp [this] at h
      · dsimp only
        split
        · rename_i p es hb
          have : s.exch.table.any (·.fenceMark) = true := by
            obtain ⟨x, hx, hf⟩ := m.fence p es hb
            exact List.any_eq_true.2 ⟨x, hx, hf⟩
          simp [this]
        · rfl
  · simp only [h8, if_false]
    refine ⟨fun h => ⟨fun h => absurd h h8, fun p behind hb => ?_⟩, fun m => ?_⟩
    · simp only [hb] at h
      by_contra hc
      have : s.exch.table.any (·.fenceMark) = false := by simpa using hc
      simp [this] at h
    · split
      · rename_i p es hb
        have : s.exch.table.any (·.fenceMark) = true := by
          obtain ⟨x, hx, hf⟩ := m.fence p es hb
          exact List.any_eq_true.2 ⟨x, hx, hf⟩
        simp [this]
      · rfl

/-- With nothing left undone, no departure is made. -/
theorem advanceAll_idle {s : State} (m : MovesInv s) : advanceAll s = s := by
  unfold advanceAll
  cases h : s.disp.queue.length with
  | zero => rfl
  | succ k => simp [advanceN, (advance1_none_iff s).2 m]

end Sys2Proof.Machine
end

