-- ==== Sys2Proof/WellFormed.lean ====
section
/-! DEFINITION. When a command is one that its partner can send: the envelope limits of R172 and R173 and the places of
the dispatch queue (R56). The machine gives a meaning to every command, well formed or not. -/

namespace Sys2Proof

/-- R173: a request message is at most 72 bytes, 2 of them its envelope, so its fields are at most 70 bytes. -/
def fieldsFit (fields : List Byte) : Bool := decide (fields.length ≤ 70)

/-- R56: the dispatch queue has places 1 to 16. -/
def placeFits (place : Nat) : Bool := decide (1 ≤ place) && decide (place ≤ 16)

/-- The checks a command must pass. -/
def WellFormed : Instr → Bool
  | .powerOnReset => true
  | .writeTransaction _ _ => true
  | .readTransaction _ _ => true
  -- R172: 1 makes the transaction a write and 2 makes it a read; any other byte is ignored.
  | .ignoredTransaction _ b => decide (b ≠ 1#8) && decide (b ≠ 2#8)
  | .sbase _ f => fieldsFit f
  | .pushl _ f => fieldsFit f
  | .dropl _ f => fieldsFit f
  | .goff _ f => fieldsFit f
  | .gread _ f => fieldsFit f
  | .gwait _ f => fieldsFit f
  | .sched _ f => fieldsFit f
  | .unsch _ f => fieldsFit f
  | .sread _ f => fieldsFit f
  | .time _ f => fieldsFit f
  | .order _ f => fieldsFit f
  | .fence _ f => fieldsFit f
  | .cancl _ f => fieldsFit f
  | .refsh _ f => fieldsFit f
  | .rtake _ f => fieldsFit f
  | .rpin _ f => fieldsFit f
  | .rfree _ f => fieldsFit f
  | .rflsh _ f => fieldsFit f
  | .rread _ f => fieldsFit f
  | .nfetch _ f => fieldsFit f
  | .nmask _ f => fieldsFit f
  | .cmask _ f => fieldsFit f
  | .snap _ f => fieldsFit f
  | .cclr _ f => fieldsFit f
  | .conf _ f => fieldsFit f
  | .cread _ f => fieldsFit f
  | .lreset _ f => fieldsFit f
  | .preset _ f => fieldsFit f
  | .gwaitLimit _ => true
  | .realCrossing _ => true
  | .syntheticCrossing => true
  | .layerExpiry _ => true
  | .applicationOfNextStated _ => true
  | .scheduleActivation _ => true
  | .openingOfReach => true
  | .settleInterval n => placeFits n
  | .repeatSpacing n => placeFits n
  | .claim => true
  | .frameWholeEnd => true
  | .collision _ => true
  | .backoffEnd => true
  | .answerWindow _ => true
  | .hold _ => true
  | .preamble _ _ => true
  | .bodyByte _ _ => true
  | .carrierEnd _ => true
  | .frameCompletion _ => true

end Sys2Proof
end

