-- ==== Sys2Proof/Laws/PerInstr.lean ====
section
/-! SUPPORT. Statements about every command, one lemma for each constructor of `Instr`. -/

namespace Sys2Proof.Laws.FitsMessage

open Sys2Proof Sys2Proof.Machine

/-- R173: the fields of a well-formed command fit a request message. -/
def Statement (i : Instr) : Prop := WellFormed i = true → (fieldsOf i).length ≤ 70

theorem powerOnReset : Statement (.powerOnReset) := fun _ => Nat.zero_le 70
theorem writeTransaction (p : Port) (bytes : List Byte) : Statement (.writeTransaction p bytes) := fun _ => Nat.zero_le 70
theorem readTransaction (p : Port) (n : Nat) : Statement (.readTransaction p n) := fun _ => Nat.zero_le 70
theorem ignoredTransaction (p : Port) (byte : Byte) : Statement (.ignoredTransaction p byte) := fun _ => Nat.zero_le 70
theorem sbase (p : Port) (fields : List Byte) : Statement (.sbase p fields) := of_decide_eq_true
theorem pushl (p : Port) (fields : List Byte) : Statement (.pushl p fields) := of_decide_eq_true
theorem dropl (p : Port) (fields : List Byte) : Statement (.dropl p fields) := of_decide_eq_true
theorem goff (p : Port) (fields : List Byte) : Statement (.goff p fields) := of_decide_eq_true
theorem gread (p : Port) (fields : List Byte) : Statement (.gread p fields) := of_decide_eq_true
theorem gwait (p : Port) (fields : List Byte) : Statement (.gwait p fields) := of_decide_eq_true
theorem sched (p : Port) (fields : List Byte) : Statement (.sched p fields) := of_decide_eq_true
theorem unsch (p : Port) (fields : List Byte) : Statement (.unsch p fields) := of_decide_eq_true
theorem sread (p : Port) (fields : List Byte) : Statement (.sread p fields) := of_decide_eq_true
theorem time (p : Port) (fields : List Byte) : Statement (.time p fields) := of_decide_eq_true
theorem order (p : Port) (fields : List Byte) : Statement (.order p fields) := of_decide_eq_true
theorem fence (p : Port) (fields : List Byte) : Statement (.fence p fields) := of_decide_eq_true
theorem cancl (p : Port) (fields : List Byte) : Statement (.cancl p fields) := of_decide_eq_true
theorem refsh (p : Port) (fields : List Byte) : Statement (.refsh p fields) := of_decide_eq_true
theorem rtake (p : Port) (fields : List Byte) : Statement (.rtake p fields) := of_decide_eq_true
theorem rpin (p : Port) (fields : List Byte) : Statement (.rpin p fields) := of_decide_eq_true
theorem rfree (p : Port) (fields : List Byte) : Statement (.rfree p fields) := of_decide_eq_true
theorem rflsh (p : Port) (fields : List Byte) : Statement (.rflsh p fields) := of_decide_eq_true
theorem rread (p : Port) (fields : List Byte) : Statement (.rread p fields) := of_decide_eq_true
theorem nfetch (p : Port) (fields : List Byte) : Statement (.nfetch p fields) := of_decide_eq_true
theorem nmask (p : Port) (fields : List Byte) : Statement (.nmask p fields) := of_decide_eq_true
theorem cmask (p : Port) (fields : List Byte) : Statement (.cmask p fields) := of_decide_eq_true
theorem snap (p : Port) (fields : List Byte) : Statement (.snap p fields) := of_decide_eq_true
theorem cclr (p : Port) (fields : List Byte) : Statement (.cclr p fields) := of_decide_eq_true
theorem conf (p : Port) (fields : List Byte) : Statement (.conf p fields) := of_decide_eq_true
theorem cread (p : Port) (fields : List Byte) : Statement (.cread p fields) := of_decide_eq_true
theorem lreset (p : Port) (fields : List Byte) : Statement (.lreset p fields) := of_decide_eq_true
theorem preset (p : Port) (fields : List Byte) : Statement (.preset p fields) := of_decide_eq_true
theorem gwaitLimit (p : Port) : Statement (.gwaitLimit p) := fun _ => Nat.zero_le 70
theorem realCrossing (t : Nat) : Statement (.realCrossing t) := fun _ => Nat.zero_le 70
theorem syntheticCrossing : Statement (.syntheticCrossing) := fun _ => Nat.zero_le 70
theorem layerExpiry (g : GroupNo) : Statement (.layerExpiry g) := fun _ => Nat.zero_le 70
theorem applicationOfNextStated (g : GroupNo) : Statement (.applicationOfNextStated g) := fun _ => Nat.zero_le 70
theorem scheduleActivation (g : GroupNo) : Statement (.scheduleActivation g) := fun _ => Nat.zero_le 70
theorem openingOfReach : Statement (.openingOfReach) := fun _ => Nat.zero_le 70
theorem settleInterval (place : Nat) : Statement (.settleInterval place) := fun _ => Nat.zero_le 70
theorem repeatSpacing (place : Nat) : Statement (.repeatSpacing place) := fun _ => Nat.zero_le 70
theorem claim : Statement (.claim) := fun _ => Nat.zero_le 70
theorem frameWholeEnd : Statement (.frameWholeEnd) := fun _ => Nat.zero_le 70
theorem collision (ph : Phase) : Statement (.collision ph) := fun _ => Nat.zero_le 70
theorem backoffEnd : Statement (.backoffEnd) := fun _ => Nat.zero_le 70
theorem answerWindow (tag : Tag) : Statement (.answerWindow tag) := fun _ => Nat.zero_le 70
theorem hold (tag : Tag) : Statement (.hold tag) := fun _ => Nat.zero_le 70
theorem preamble (ph : Phase) (grade : Grade) : Statement (.preamble ph grade) := fun _ => Nat.zero_le 70
theorem bodyByte (ph : Phase) (byte : Byte) : Statement (.bodyByte ph byte) := fun _ => Nat.zero_le 70
theorem carrierEnd (ph : Phase) : Statement (.carrierEnd ph) := fun _ => Nat.zero_le 70
theorem frameCompletion (ph : Phase) : Statement (.frameCompletion ph) := fun _ => Nat.zero_le 70

end Sys2Proof.Laws.FitsMessage
end

