-- ==== Sys2Proof/Laws/Requests.lean ====
section
/-! SUPPORT. A request row through its port, said once: what it is on an idle port, with its request in hand, and on a busy
port (R175, R176; log 3). -/

namespace Sys2Proof.Machine

/-- The state in which the owner acts on a request: the port is WORKING with nothing in hand. -/
def taken (p : Port) (s : State) : State := updPort p (fun c => { c with state := .working, inHand := none }) s

theorem updPort_updPort (p : Port) (f g : PortCtl → PortCtl) (s : State) :
    updPort p f (updPort p g s) = updPort p (fun c => f (g c)) s := by
  cases p <;> rfl

theorem clearInHand_takeRequest (p : Port) (r : Request) (s : State) :
    clearInHand p (takeRequest p r s) = taken p s := by
  simp only [clearInHand, takeRequest, updPort_updPort]
  rfl

theorem clearInHand_working {p : Port} {s : State} (h : (s.port p).state = .working) : clearInHand p s = taken p s := by
  unfold clearInHand taken updPort
  congr 2
  change _ = ({ s.ports.get p with state := .working, inHand := none } : PortCtl)
  have h' : (s.ports.get p).state = .working := h
  rw [← h']

/-- R175: on an IDLE port a request row is written, taken and acted on. -/
theorem requestStep_idle {p : Port} {k : ReqKind} {fields : List Byte} {act : State → State} {s : State}
    (h : (s.port p).state = .idle) (l : fields.length ≤ 70) : requestStep p k fields act s = act (taken p s) := by
  simp only [requestStep, h, l, if_true, clearInHand_takeRequest]

/-- R176: with this very request in hand, its owner acts on it. -/
theorem requestStep_inHand {p : Port} {k : ReqKind} {fields : List Byte} {act : State → State} {s : State}
    (h : (s.port p).state = .working) (i : (s.port p).inHand = some { kind := k, fields := fields }) :
    requestStep p k fields act s = act (taken p s) := by
  simp only [requestStep, h, i, if_true, clearInHand_working h]

/-- R175: on a busy port the request is discarded. -/
theorem requestStep_busy {p : Port} {k : ReqKind} {fields : List Byte} {act : State → State} {s : State}
    (h : (s.port p).state ≠ .idle) (i : (s.port p).inHand ≠ some { kind := k, fields := fields }) :
    requestStep p k fields act s = overrun p s := by
  unfold requestStep
  split
  · contradiction
  · simp [i]
  · rfl

/-- Everything a request row can do: it is refused for its length, its owner acts, or it is discarded. -/
theorem requestStep_cases (p : Port) (k : ReqKind) (fields : List Byte) (act : State → State) (s : State) :
    (requestStep p k fields act s = refuseEnvelope p (some k) s ∧ (s.port p).state = .idle)
      ∨ (requestStep p k fields act s = act (taken p s)
          ∧ ((s.port p).state = .idle ∨ ((s.port p).state = .working ∧ (s.port p).inHand ≠ none)))
      ∨ requestStep p k fields act s = overrun p s := by
  by_cases h : (s.port p).state = .idle
  · by_cases l : fields.length ≤ 70
    · exact .inr (.inl ⟨requestStep_idle h l, .inl h⟩)
    · left
      exact ⟨by simp only [requestStep, h, l, if_false], h⟩
  · by_cases i : (s.port p).inHand = some { kind := k, fields := fields }
    · unfold requestStep
      split
      · contradiction
      · rename_i hw
        refine .inr (.inl ⟨?_, .inr ⟨hw, by simp [i]⟩⟩)
        simp [i, clearInHand_working hw]
      · exact .inr (.inr rfl)
    · exact .inr (.inr (requestStep_busy h i))

/-! ## The state in which an owner acts -/

@[simp] theorem taken_port_ne {p q : Port} (s : State) (h : q ≠ p) : (taken p s).port q = s.port q :=
  updPort_port_ne _ _ h

@[simp] theorem taken_state (p : Port) (s : State) : ((taken p s).port p).state = .working := by simp [taken]

@[simp] theorem taken_inHand (p : Port) (s : State) : ((taken p s).port p).inHand = none := by simp [taken]

@[simp] theorem taken_notices (p q : Port) (s : State) : ((taken p s).port q).notices = (s.port q).notices := by
  simp only [taken, updPort_port]; split
  · rename_i e; subst e; rfl
  · rfl

@[simp] theorem taken_mask (p q : Port) (s : State) : ((taken p s).port q).mask = (s.port q).mask := by
  simp only [taken, updPort_port]; split
  · rename_i e; subst e; rfl
  · rfl

@[simp] theorem taken_time (p : Port) (s : State) : (taken p s).time = s.time := rfl
@[simp] theorem taken_groups (p : Port) (s : State) : (taken p s).groups = s.groups := rfl
@[simp] theorem taken_group (p : Port) (s : State) (g : GroupNo) : (taken p s).group g = s.group g := rfl
@[simp] theorem taken_waits (p : Port) (s : State) : (taken p s).waits = s.waits := rfl
@[simp] theorem taken_schedule (p : Port) (s : State) : (taken p s).schedule = s.schedule := rfl
@[simp] theorem taken_heldBack (p : Port) (s : State) : (taken p s).heldBack = s.heldBack := rfl
@[simp] theorem taken_disp (p : Port) (s : State) : (taken p s).disp = s.disp := rfl
@[simp] theorem taken_exch (p : Port) (s : State) : (taken p s).exch = s.exch := rfl
@[simp] theorem taken_routes (p : Port) (s : State) : (taken p s).routes = s.routes := rfl
@[simp] theorem taken_arb (p : Port) (s : State) : (taken p s).arb = s.arb := rfl
@[simp] theorem taken_tx (p : Port) (s : State) : (taken p s).tx = s.tx := rfl
@[simp] theorem taken_rx (p : Port) (s : State) : (taken p s).rx = s.rx := rfl
@[simp] theorem taken_conf (p : Port) (s : State) : (taken p s).conf = s.conf := rfl
@[simp] theorem taken_choices (p : Port) (s : State) : (taken p s).choices = s.choices := rfl
@[simp] theorem taken_pending (p : Port) (s : State) : (taken p s).pending = s.pending := rfl
@[simp] theorem taken_count (p : Port) (s : State) : (taken p s).count = s.count := rfl

/-- R176: an answer to a taken request, as one change of the port's controller. -/
theorem reply_taken (p : Port) (k : ReqKind) (o : ReqOutcome) (b : ResponseBody) (f : PortCtl → PortCtl) (s : State) :
    reply p k o b (updPort p f (taken p s))
      = updPort p (fun c => answeredAs k o none b (f { c with state := .working, inHand := none })) s := by
  simp only [reply, respond, taken, updPort_updPort]
  rfl

/-- R176: an answer to a taken request that changes nothing else. -/
theorem reply_taken_only (p : Port) (k : ReqKind) (o : ReqOutcome) (b : ResponseBody) (s : State) :
    reply p k o b (taken p s) = updPort p (answeredAs k o none b) s := by
  simp only [reply, respond, taken, updPort_updPort]
  rfl

/-- R176: an answer to a taken request, as a change of the state in which the port was idle. -/
theorem reply_taken_answer (p : Port) (k : ReqKind) (o : ReqOutcome) (b : ResponseBody) (s : State) :
    reply p k o b (taken p s) = answer p k o none b id s := by rw [reply_taken_only]; rfl

/-- R176: an answer to a taken request whose port's controller was changed by `f`. -/
theorem reply_upd_answer (p : Port) (k : ReqKind) (o : ReqOutcome) (b : ResponseBody) (f : PortCtl → PortCtl) (s : State) :
    reply p k o b (updPort p f (taken p s))
      = answer p k o none b (fun c => f { c with state := .working, inHand := none }) s := by rw [reply_taken]; rfl

/-- R173, R174: a request row whose owner cannot read its fields, or that is too long, is answered MALFORMED. -/
theorem requestStep_malformed {p : Port} {k : ReqKind} {fields : List Byte} {act : State → State} {s : State}
    (h : PortIdle p s) (m : act (taken p s) = malformed p k (taken p s)) :
    requestStep p k fields act s = answer p k .malformed none .empty id s := by
  by_cases l : fields.length ≤ 70
  · rw [requestStep_idle h l, m, malformed, reply_taken_answer]
  · unfold requestStep
    rw [show (s.port p).state = .idle from h]
    simp [l, refuseEnvelope, respond, answer, answeredAs]

theorem reply_answered (p : Port) (k : ReqKind) (o : ReqOutcome) (b : ResponseBody) (s : State) :
    Answered p k o none b (reply p k o b s) := by simp [Answered, reply, respond]

/-- The limits hold where an owner acts, and the port has no wait open. -/
theorem Inv.taken {s : State} (h : Inv s) {p : Port}
    (c : (s.port p).state = .idle ∨ ((s.port p).state = .working ∧ (s.port p).inHand ≠ none)) :
    Inv (taken p s) ∧ s.waits.get p = none := by
  have hw : s.waits.get p = none := by
    by_contra hn
    have := h.waits p (Option.isSome_iff_ne_none.2 hn)
    rcases c with c | c
    · rw [this.1] at c; cases c
    · exact c.2 this.2
  have ok := h.ports p
  have hs : (s.port p).slot = none := by
    have hne : (s.port p).state ≠ .answered := by
      rcases c with c | c
      · rw [c]; decide
      · rw [c.1]; decide
    by_contra hn
    exact hne (ok.slot.1 (Option.isSome_iff_ne_none.2 hn))
  refine ⟨h.updPort p _ ⟨ok.notices, ok.ordinary, ok.attention, by simp [hs], by simp⟩ (by simp [hw]), hw⟩

end Sys2Proof.Machine
end

