-- ==== Sys2Proof/Tests/Slice0.lean ====
section
/-! SUPPORT. Tests: the ill-formed commands that `WellFormed` refuses, the worked figures of the manual, one small step of every
command, and for every statement with hypotheses the states and operands that meet them. Expected values are written from the
rules named beside them. -/

set_option Elab.async false

namespace Sys2Proof.Tests

open Sys2Proof Sys2Proof.Machine

/-! ## Ill-formed commands -/

theorem test_ignored_transaction_refuses_write_byte : WellFormed (.ignoredTransaction .A 1) = false := by decide
theorem test_ignored_transaction_refuses_read_byte : WellFormed (.ignoredTransaction .A 2) = false := by decide
theorem test_fields_of_71_bytes_refused : WellFormed (.sbase .A (List.replicate 71 0)) = false := by decide
theorem test_fields_of_70_bytes_pass : WellFormed (.sbase .A (List.replicate 70 0)) = true := by decide
theorem test_place_0_refused : WellFormed (.settleInterval 0) = false := by decide
theorem test_place_17_refused : WellFormed (.repeatSpacing 17) = false := by decide
theorem test_place_16_passes : WellFormed (.repeatSpacing 16) = true := by decide

/-! ## Worked figures of the manual -/

/-- R101: the check over the nine bytes 49 to 57 is 10673. -/
theorem test_frame_check_reference : frameCheck [49, 50, 51, 52, 53, 54, 55, 56, 57] = 10673#16 := by decide +kernel

/-- R55: ANNOUNCE, 4 / 7 / 20. -/
theorem test_slots_announce : [Grade.g1, .g2, .g3].map announceSlots = [4, 7, 20] := by decide

/-- R55: ORDER frame, ASSIGN, 0 to 3 relays. -/
theorem test_slots_assign : (List.range 4).map (fun h => [Grade.g1, .g2, .g3].map (slotsOf (orderBody (.assign 0) h)))
    = [[4, 6, 15], [4, 6, 18], [4, 7, 21], [4, 8, 24]] := by decide

/-- R55: ORDER frame, QUERY or TEST. -/
theorem test_slots_query : (List.range 4).map (fun h => [Grade.g1, .g2, .g3].map (slotsOf (orderBody (.query 0) h)))
    = [[3, 5, 14], [4, 6, 17], [4, 7, 20], [4, 8, 23]] := by decide

/-- R55: ANSWER to an accepted QUERY. -/
theorem test_slots_query_answer : (List.range 4).map (fun h => [Grade.g1, .g2, .g3].map (slotsOf (answerBody (.query 0) h)))
    = [[4, 7, 20], [4, 8, 23], [4, 8, 26], [5, 9, 29]] := by decide

/-- R55: RECEIPT. -/
theorem test_slots_receipt : (List.range 4).map (fun h => [Grade.g1, .g2, .g3].map (slotsOf (receiptBody h)))
    = [[3, 5, 13], [4, 6, 16], [4, 7, 19], [4, 7, 22]] := by decide

/-- R84: the worked countdowns at grade 2 with activation 1,000,000. -/
theorem test_countdowns : [999980, 999992, 999993, 1000004].map (fun c => countdownOf (some 1000000) (c + announceSlots .g2))
    = [13, 1, 0, 0] := by decide

/-- R84: of the same four transmissions the last two are late. -/
theorem test_late : [999987, 999999, 1000000, 1000011].map (isLate (some 1000000)) = [false, false, true, true] := by decide

/-- R173: SBASE of group 2, rate 3, K1 and K3, level 9 through its message. -/
theorem test_envelope_sbase : openEnvelope [1, 4, 2, 3, 5, 9] = some { kind := .sbase, fields := [2, 3, 5, 9] } := by decide

/-- R100, R174: the fields of the same request. -/
theorem test_fields_sbase : readSbase [2, 3, 5, 9] = some (2, { rate := 3, relays := 5, level := 9 }) := by decide

/-- No row of the table has bits. -/
theorem test_no_word_spells_a_command : decodeTableWord 8 0 = none := by decide

/-! ## States -/

/-- The next state of a command. -/
def after (c : Instr) (s : State) : State :=
  match exec c s with
  | .next t => t
  | .fault _ => s
  | .refused _ => s

/-- A tariff setting: rate 1, every channel open, level 0. -/
def low : Setting := { rate := 1, relays := 0, level := 0 }

/-- A tariff setting: rate 8, K1 to K4 closed, level 9. -/
def high : Setting := { rate := 8, relays := 15, level := 9 }

/-- Group 1 ACTIVE with `low` as its base, the overrides given, and a stated setting. -/
def active (os : List Override) (stated : Option Stated) (s : State) : State :=
  updGroup 1 (fun r => { r with holding := .active { setting := low, origin := .port .A } os, stated := stated }) s

/-- An override of group 1 with `high`. -/
def layer (c : OverrideClass) (p : Port) (expiry : Option Count) : Override :=
  { cls := c, setting := high, origin := p, expiry := expiry, pushed := 0 }

/-- The mains count at `n`, in PRESENT, with a crossing's claims open on a quiet line, the station numbered 9. -/
def present (n : Count) (s : State) : State :=
  ((((s.setTime { s.time with count := n, state := .present, reference := some (0, .counted), due := some 30000 }).setConf
    { s.conf with station := 9 }).setTx { state := .idle, frame := none, backoffEnd := none }).setArb
    { holder := .none, quiet := true, busy := false, claimOpen := true })

/-- An announcement entry of group 1. -/
def entry (content : Setting) (activation : Option Count) (started : Bool) (repeats : Nat) : Ann :=
  { group := 1, content := content, activation := activation, flavour := .new, stamp := if started then some 1 else none
    started := started, repeats := repeats, done := 0, lastEnd := none, entryCount := 0, origin := some .A, late := false }

/-- An exchange of port A with unit 7, tag 5 and reference 3. -/
def exch5 (k : OrderKind) (x : ExchState) : Exchange :=
  { tag := 5, unit := 7, kind := k, port := .A, reference := 3, state := x, retries := .limited 3, defers := 4, fallback := 0
    attempt := some { grade := .g2, relays := 0, start := 10, endCount := 16 }, attempts := 1
    deadline := if x = .waiting then some 40 else none, holdUntil := if x = .held then some 40 else none
    fenceMark := false, cancelPending := false }

/-- The exchange table with one exchange. -/
def withExch (x : Exchange) (s : State) : State :=
  s.setExch { table := [x], tagCounter := 6, ready := if x.state = .ready then [x.tag] else [] }

/-- A frame of 6 slots on the line from count 94 to 100. -/
def line (h : Holder) (s : State) : State :=
  let f : Frame := { kind := .order, phase := .one .L2, grade := .g2, start := 94, slots := 6, endCount := 100, body := [] }
  (s.setTx { state := .sending, frame := some f, backoffEnd := none }).setArb
    { holder := h, quiet := false, busy := true, claimOpen := true }

/-- The announcement of group 1 in progress. -/
def sending (s : State) : State :=
  s.setDisp { s.disp with
    sending := some { group := 1, start := 94, grade := .g2, slots := 6, endCount := 100, hop := 2, stamp := 1, countdown := 0 } }

/-- A schedule entry of group 1. -/
def sched1 (a : Count) (m : Mark) : SchedEntry := { group := 1, activation := a, setting := high, origin := .B, mark := m }

/-- At count 100: group 1 with the base `high` of port A under an override of `low` that expires at this count, `low` stated, and a
schedule entry of `high` whose activation count this is. -/
def uncovering : State :=
  (updGroup 1 (fun r => { r with
    holding := .active { setting := high, origin := .port .A } [{ layer .loadRelief .B (some 100) with setting := low }]
    stated := some { setting := low, stamp := 8 } }) (present 100 State.reset)).setSchedule [sched1 100 .none]

/-- A route to a unit through unit 20. -/
def route (u : UnitNo) (pinned : Bool) : Route :=
  { unit := u, path := [20], phase := .L2, grade := .g1, pinned := pinned, written := 5 }

/-- The Route Cache with one route, at place 3. -/
def withRoute (r : Route) (s : State) : State :=
  s.setRoutes { places := (Vector.replicate 64 none).set 3 (some r), lastUsed := some 3 }

/-- A held event report of unit 7. -/
def report7 : HeldReport :=
  { source := 7, number := 4, data := [1, 2], path := [20], phase := .L1, grade := .g2, count := 90 }

/-- A body as a unit sends it at its final hop: kind, to station 9, from unit 7 through unit 20, and its payload (R97 to R101). -/
def body (kind : Byte) (payload : List Byte) : List Byte :=
  withCheck ([kind, 0, 0, 9, 0, 0, 7, 0x14] ++ [0, 0, 20] ++ payload)

/-- A frame being assembled on L1 in buffer 2; its carrier has ended in the slot closed by count 100 when `done`. -/
def assembling (bytes : List Byte) (done : Bool) (s : State) : State :=
  s.setRx { s.rx with
    phases := { s.rx.phases with l1 := .assembling 2 (if done then some 100 else none) }
    pool := s.rx.pool.set 2 (.assembling { bytes := bytes, phase := .L1, grade := .g2, maxBody := 64, station := 9 }) }

/-- A request answered DONE with no fields. -/
def done (p : Port) (k : ReqKind) (s : State) : Bool :=
  decide ((s.port p).slot = some { kind := some k, outcome := .done, condition := none, body := .empty })

/-! ## One step of each command -/

/-- R189 -/
theorem test_power_on_clears_the_count : (after .powerOnReset (present 500 State.reset)).count = 0 := by decide +kernel
/-- R175: TIME is request 10; the message is its kind and the length 0. -/
theorem test_write_takes_time :
    ((after (.writeTransaction .B [10, 0]) State.reset).port .B).inHand = some { kind := .time, fields := [] } := by decide +kernel
/-- R173: there is no request 29. -/
theorem test_write_refuses_kind_29 :
    (((after (.writeTransaction .B [29, 0]) State.reset).port .B).slot.map (·.outcome)) = some .malformed := by decide +kernel
/-- R53, R172 to R174: status ANSWERED; kind 10, DONE, no condition, 10 field bytes: count 0, STARTING, 10000 microseconds. -/
theorem test_read_returns_time : ((after (.readTransaction .A 70) (after (.time .A []) State.reset)).port .A).dataOut
    = [2, 10, 0, 0, 10, 0, 0, 0, 0, 0, 1, 0, 0, 0x27, 0x10] := by decide +kernel
/-- R172 -/
theorem test_read_frees_the_port :
    ((after (.readTransaction .A 0) (after (.time .A []) State.reset)).port .A).state = .idle := by decide +kernel
/-- R172 -/
theorem test_ignored_transaction : after (.ignoredTransaction .A 7) (present 3 State.reset) = present 3 State.reset := by decide +kernel
/-- R15 -/
theorem test_sbase_activates : ((after (.sbase .B [1, 8, 15, 9]) State.reset).group 1).holding
    = .active { setting := high, origin := .port .B } [] := by decide +kernel
/-- R14: unmasked RANGE refuses level 10. -/
theorem test_sbase_refuses_level_10 :
    ((after (.sbase .A [1, 8, 15, 10]) (updPort .A (fun c => { c with mask := CondSet.clear }) State.reset)).port .A).slot
      = some { kind := some .sbase, outcome := .condition, condition := some .range, body := .empty } := by decide +kernel
/-- R4: class 2 goes below class 3 and above class 1. -/
theorem test_pushl_rank :
    (overridesOf ((after (.pushl .A [1, 2, 8, 15, 9, 0])
      (active [layer .networkEmergency .B none, layer .priceEvent .B none] none State.reset)).group 1).holding).map (·.cls)
        = [.networkEmergency, .loadRelief, .priceEvent] := by decide +kernel
/-- R17: the eighth layer evicts the lowest of its class. -/
theorem test_pushl_evicts :
    ((after (.pushl .A [1, 1, 8, 15, 9, 0]) (active (List.replicate 7 (layer .priceEvent .B none)) none State.reset)).port
      .B).notices.map (·.body) = [.layerEnded .evicted 1 .priceEvent high] := by decide +kernel
/-- R17, R23, R174: the group stands last in an EVICTED notice, and behind the reason in an EXPIRED one. -/
theorem test_layer_ended_bytes :
    encNotice { count := 100, body := .layerEnded .evicted 5 .priceEvent high } = [2, 0, 0, 0, 0, 100, 1, 1, 8, 15, 9, 5]
      ∧ encNotice { count := 100, body := .layerEnded .expired 5 .priceEvent high } = [2, 0, 0, 0, 0, 100, 2, 5, 1, 8, 15, 9] := by
  decide +kernel
/-- R18: the port's own layer goes, the other port's stays. -/
theorem test_dropl_own_layer :
    overridesOf ((after (.dropl .A [1, 0])
      (active [layer .loadRelief .B none, layer .priceEvent .A none] none State.reset)).group 1).holding
        = [layer .loadRelief .B none] := by decide +kernel
/-- R18: UNDERFLOW is raised by the port that has no layer. -/
theorem test_dropl_underflow :
    ((after (.dropl .A [1, 1, 2]) (active [layer .loadRelief .B none] none State.reset)).port .A).summary.underflow = true := by
  decide +kernel
/-- R19 -/
theorem test_goff_empties_the_queue :
    (after (.goff .A [1]) (setQueue [.ann (entry low none true 1)] (active [] none State.reset))).disp.queue = [] := by decide +kernel
/-- R12, R33: next stated is applied first, so the COMPLETED mark stands. -/
theorem test_goff_applies_next_stated :
    (after (.goff .A [1]) ((updGroup 1 (fun r => { r with next := some { setting := high, stamp := 9, activation := 100 } })
      (active [] none (present 100 State.reset))).setSchedule [sched1 100 .completed])).schedule = [sched1 100 .completed] := by
  decide +kernel
/-- R20 -/
theorem test_gread_counts_layers :
    ((after (.gread .B [1, 0]) (active [layer .loadRelief .B none] none State.reset)).port .B).slot.map
      (fun r => match r.body with
        | .group g => (g.active, g.layerCount, g.settled)
        | _ => (false, 0, false)) = some (true, 2, true) := by decide +kernel
/-- R21: the limit is 65535 slots ahead. -/
theorem test_gwait_waits :
    (after (.gwait .A [1]) (setQueue [.ann (entry low none false 0)] (active [] none (present 100 State.reset)))).waits.a
      = some { group := 1, limit := 65635 } := by decide +kernel
/-- R29: activation 256 goes before activation 300. -/
theorem test_sched_orders :
    (after (.sched .B [1, 0, 0, 0, 1, 0, 8, 15, 9]) (State.reset.setSchedule [sched1 300 .none])).schedule
      = [sched1 256 .none, sched1 300 .none] := by decide +kernel
/-- R36: at the crossing, before the activation, the SCHED replaces the entry and the replacement acts. -/
theorem test_sched_replaces_at_its_crossing :
    ((after (.scheduleActivation 1) (after (.sched .B [1, 0, 0, 0, 0, 100, 8, 15, 9]) ((active [] none (present 100
      State.reset)).setSchedule [{ sched1 100 .none with setting := low }]))).group 1).holding
        = .active { setting := high, origin := .schedule } [] := by decide +kernel
/-- R40, R79: within its reach, an entry made after a line reset is pre-announced first at the next counted crossing. -/
theorem test_sched_held_back :
    let s := after (.sched .B [1, 0, 0, 0, 1, 44, 8, 15, 9]) (after (.lreset .A [])
      (active [] (some { setting := low, stamp := 1 }) (present 100 State.reset)))
    s.schedule.map (·.mark) = [.none] ∧ (after .syntheticCrossing s).schedule.map (·.mark) = [.queued] := by decide +kernel
/-- R37 -/
theorem test_unsch_withdraws :
    (after (.unsch .A [1, 0, 0, 0, 1, 44]) (State.reset.setSchedule [sched1 256 .none, sched1 300 .none])).schedule
      = [sched1 256 .none] := by decide +kernel
/-- R39 -/
theorem test_sread_from_index_1 :
    ((after (.sread .A [1]) (State.reset.setSchedule [sched1 256 .none, sched1 300 .none])).port .A).slot.map (·.body)
      = some (.schedule 2 [(1, sched1 300 .none)]) := by decide +kernel
/-- R53 -/
theorem test_time_reads_the_count :
    ((after (.time .A []) (present 77 State.reset)).port .A).slot.map (·.body) = some (.time 77 .present 10000) := by decide +kernel
/-- R73, R137: with an exchange free the order moves at once, with the retry limit 3 and 4 defers. -/
theorem test_order_moves :
    (after (.order .A [0, 0, 7, 1, 1, 1, 9, 0]) State.reset).exch.table.map (fun x => (x.unit, x.kind, x.retries, x.defers))
      = [(7, .assign 1, .limited 3, 4)] := by decide +kernel
/-- R71: the destination 16,777,215 is refused. -/
theorem test_order_to_all_refused :
    ((after (.order .A [255, 255, 255, 3, 0, 9, 0]) State.reset).port .A).slot.map (·.outcome) = some .malformed := by decide +kernel
/-- R74 -/
theorem test_fence_marks :
    (after (.fence .B []) (withExch (exch5 .test .waiting) State.reset)).exch.table.map (·.fenceMark) = [true] := by decide +kernel
/-- R76, R153 -/
theorem test_cancl_ends_the_exchange :
    (after (.cancl .A [3]) (withExch (exch5 .test .waiting) State.reset)).exch.table = [] := by decide +kernel
/-- R76, R155: each exchange ends whole: the fence that the first held leaves, and QUEUE SPACE is queued, before the second's
notice. -/
theorem test_cancl_ends_each_whole :
    let s := setQueue (.fence .B :: List.replicate 11 (.order { unit := 8, kind := .test, port := .B, reference := 1 }))
      (State.reset.setExch
        { table := [{ exch5 .test .waiting with fenceMark := true }, { exch5 .test .waiting with tag := 6 }]
          tagCounter := 7, ready := [] })
    ((after (.cancl .A [3]) (s.setDisp { s.disp with spaceMarks := { a := true, b := false } })).port .A).notices.map
      (fun n => match n.body with
        | .orderEnded e => e.tag
        | _ => none) = [some 5, none, some 6] := by decide +kernel
/-- R153: in SENDING the cancel waits. -/
theorem test_cancl_marks_a_sending_exchange :
    (after (.cancl .A [3]) (withExch (exch5 .test .sending) State.reset)).exch.table.map (·.cancelPending) = [true] := by decide +kernel
/-- R64: a CATCH-UP carries the stated setting and its stamp. -/
theorem test_refsh_repeats :
    (after (.refsh .A [1]) (active [] (some { setting := low, stamp := 41 }) State.reset)).disp.queue
      = [.ann { group := 1, content := low, activation := none, flavour := .catchUp, stamp := some 41, started := false
                repeats := 0, done := 0, lastEnd := none, entryCount := 0, origin := some .A, late := false }] := by decide +kernel
/-- R133 -/
theorem test_rtake_wrong_port :
    ((after (.rtake .B []) State.reset).port .B).slot.map (·.outcome) = some .wrongPort := by decide +kernel
/-- R166 -/
theorem test_rpin_lowest_place :
    (after (.rpin .A [0, 0, 7, 1, 0, 0, 20, 2, 1]) (present 5 State.reset)).routes.places.get 0 = some (route 7 true) := by decide +kernel
/-- R167 -/
theorem test_rfree_unpins :
    (after (.rfree .A [0, 0, 7]) (withRoute (route 7 true) State.reset)).routes.places.get 3 = some (route 7 false) := by decide +kernel
/-- R168 -/
theorem test_rflsh_removes :
    (after (.rflsh .A []) (withRoute (route 7 false) State.reset)).routes.lastUsed = none := by decide +kernel
/-- R169 -/
theorem test_rread_not_found :
    ((after (.rread .A [0, 0, 8]) (withRoute (route 7 false) State.reset)).port .A).slot.map (·.outcome) = some .notFound := by
  decide +kernel
/-- R182 -/
theorem test_nfetch_empty : ((after (.nfetch .A []) State.reset).port .A).slot.map (·.outcome) = some .notFound := by decide +kernel
/-- R183: QUEUE SPACE, kind 10, masked, asserts nothing. -/
theorem test_nmask_releases_attention :
    ((after (.nmask .A [0, 0, 0, 0, 0, 0, 0, 0, 0, 1, 0]) (notify .A .queueSpace State.reset)).port .A).attention = false := by
  decide +kernel
/-- R178 -/
theorem test_cmask_order :
    ((after (.cmask .A [1, 0, 0, 1]) State.reset).port .A).mask
      = { range := true, overflow := false, underflow := false, past := true } := by decide +kernel
/-- R179: the option masks every condition. -/
theorem test_snap_masks :
    ((after (.snap .A [1]) (updPort .A (fun c => { c with mask := CondSet.clear }) State.reset)).port .A).mask = CondSet.all := by
  decide +kernel
/-- R180 -/
theorem test_cclr_clears :
    ((after (.cclr .A []) (raiseCond .A .past .sched 1 State.reset)).port .A).summary = CondSet.clear := by decide +kernel
/-- R185: a station number of 16,777,215 is clamped; a hold interval of 7 is set to 8. -/
theorem test_conf_clamps :
    ((after (.conf .A [1, 255, 255, 255, 10, 0, 7]) State.reset).conf.station,
      (after (.conf .A [1, 255, 255, 255, 10, 0, 7]) State.reset).conf.holdInterval) = (16777214, 8) := by decide +kernel
/-- R185: the other port is told the values before and after. -/
theorem test_conf_tells :
    ((after (.conf .A [7, 0, 5]) State.reset).port .B).notices.map (·.body) = [.configChanged [(.defaultRepeat, 2, 5)]] := by decide +kernel
/-- R186 -/
theorem test_cread_returns_all :
    ((after (.cread .B []) State.reset).port .B).slot.map (·.body) = some (.params Params.reset) := by decide +kernel
/-- R159, R188 -/
theorem test_lreset_ends_exchanges :
    (after (.lreset .A []) (withExch (exch5 .test .waiting) State.reset)).exch.table = [] := by decide +kernel
/-- R12, R79: with an entry in flight the stated setting is absent after a line reset, a next stated whose count has come or not. -/
theorem test_lreset_leaves_nothing_stated :
    ((after (.lreset .A []) (line (.announcement 1) (sending (setQueue [.ann (entry high none true 0)]
      (updGroup 1 (fun r => { r with next := some { setting := low, stamp := 9, activation := 100 } })
        (active [] none (present 100 State.reset))))))).group 1).stated = none := by decide +kernel
/-- R187 -/
theorem test_preset_unmasks_notices :
    ((after (.preset .A []) (updPort .A (fun c => { c with noticeMask := 2047 }) State.reset)).port .A).noticeMask = 0 := by decide +kernel
/-- R22: the limit count answers UNSETTLED. -/
theorem test_gwait_limit :
    ((after (.gwaitLimit .A) ((present 100 State.reset).setWaits { a := some { group := 1, limit := 100 }, b := none })).port
      .A).state = .answered := by decide +kernel
/-- R42: the first edge is counted. -/
theorem test_first_crossing_counts : (after (.realCrossing 12345) State.reset).count = 1 := by decide +kernel
/-- R44: the third consistent spacing makes the state PRESENT. -/
theorem test_third_spacing_is_present :
    (after (.realCrossing 40000) (State.reset.setTime
      { State.reset.time with reference := some (60000, .counted), lastCounted := some (60000, .real), run := 2 })).time.state
        = .present := by decide +kernel
/-- R45, R46: 1.5 E after the last edge the count goes on and the state is LOST. -/
theorem test_synthetic_crossing :
    (after .syntheticCrossing (present 100 State.reset)).time.due = some 50000 := by decide +kernel
/-- R23 -/
theorem test_layer_expiry :
    overridesOf ((after (.layerExpiry 1)
      (active [layer .loadRelief .B (some 100), layer .priceEvent .B (some 101)] none (present 100 State.reset))).group 1).holding
        = [layer .priceEvent .B (some 101)] := by decide +kernel
/-- R12, R23, R36: the expiry before the activation of the setting that the override held: nothing is requested. -/
theorem test_expiry_then_activation :
    (after (.scheduleActivation 1) (after (.layerExpiry 1)
      ((active [layer .loadRelief .B (some 100)] (some { setting := high, stamp := 8 }) (present 100 State.reset)).setSchedule
        [sched1 100 .none]))).disp.queue = [] := by decide +kernel
/-- R12 -/
theorem test_next_stated_applied :
    ((after (.applicationOfNextStated 1) (updGroup 1
      (fun r => { r with next := some { setting := low, stamp := 9, activation := 100 } })
      (active [] none (present 100 State.reset)))).group 1).stated = some { setting := low, stamp := 9 } := by decide +kernel
/-- R36: the base, of port A, is the setting that the entry activates, and an override of another setting, which is stated,
expires at the same count: the announcement has origin none, the activated base's, also where the expiry requests it first. -/
theorem test_expiry_then_activation_origin :
    (after (.scheduleActivation 1) (after (.layerExpiry 1) uncovering)).disp.queue
      = [.ann { entry high none false 2 with entryCount := 100, origin := none }] := by decide +kernel
/-- R36: a check left to an activation, which an entry carries, is made when UNSCH takes that activation away: the entry takes the
setting the expiry has uncovered. -/
theorem test_unsch_makes_the_check_left :
    (after (.unsch .A [1, 0, 0, 0, 0, 100]) (after (.layerExpiry 1)
      (setQueue [.ann (entry high none false 1)] ((active [layer .loadRelief .B (some 100)]
        (some { setting := { low with rate := 2 }, stamp := 8 }) (present 100 State.reset)).setSchedule [sched1 100 .none])))).disp.queue
          = [.ann (entry low none false 2)] := by decide +kernel
/-- R34 -/
theorem test_schedule_activation :
    ((after (.scheduleActivation 1) ((active [] none (present 100 State.reset)).setSchedule [sched1 100 .none])).group 1).holding
      = .active { setting := high, origin := .schedule } [] := by decide +kernel
/-- R12, R34, R36: the application of next stated before the activation that it announced: nothing is requested. -/
theorem test_application_then_activation :
    (after (.scheduleActivation 1) (after (.applicationOfNextStated 1) ((updGroup 1
      (fun r => { r with next := some { setting := high, stamp := 9, activation := 100 } })
      (active [] (some { setting := low, stamp := 8 }) (present 100 State.reset))).setSchedule
        [sched1 100 .completed]))).disp.queue = [] := by decide +kernel
/-- R31, R32: at count 100 with a lead window of 30000 and grade 2, the reach of activation 30107 opens. -/
theorem test_opening_pre_announces :
    (after .openingOfReach ((active [] none (present 100 State.reset)).setSchedule [sched1 30107 .none])).schedule
      = [sched1 30107 .queued] := by decide +kernel
/-- R66: an interval changes nothing held. -/
theorem test_settle_interval : after (.settleInterval 1) State.reset = State.reset := by decide +kernel
/-- R89 -/
theorem test_repeat_spacing : after (.repeatSpacing 1) State.reset = State.reset := by decide +kernel
/-- R68, R82: the first stamp is 1; the frame takes 7 slots at grade 2. -/
theorem test_claim_sends_the_announcement :
    (after .claim (setQueue [.ann (entry low none false 0)] (active [] none (present 100 State.reset)))).disp.sending
      = some { group := 1, start := 100, grade := .g2, slots := 7, endCount := 107, hop := 2, stamp := 1, countdown := 0 } := by
  decide +kernel
/-- R109, R113: a station number set after the crossing is first used at the next. -/
theorem test_claim_after_conf :
    (after .claim (after (.conf .A [1, 0, 0, 9]) (setQueue [.ann (entry low none false 0)]
      (((active [] none (present 100 State.reset)).setConf Params.reset).setTx
        { state := .dormant, frame := none, backoffEnd := none })))).tx = { state := .idle, frame := none, backoffEnd := none } := by
  decide +kernel
/-- R140, R161: the exchange goes before the queue, on its route's phase. -/
theorem test_claim_prefers_the_exchange :
    ((after .claim (setQueue [.ann (entry low none false 0)]
      (withRoute (route 7 true) (withExch (exch5 .test .ready) (active [] none (present 100 State.reset)))))).tx.frame.map
        (fun f => (f.kind, f.phase, f.grade, f.endCount))) = some (.order, .one .L2, .g1, 104) := by decide +kernel
/-- R10, R12, R88: the completed announcement is the stated setting, over a next stated whose count has come as well; and the check
asks for the effective setting of an override whose expiry is still to act. -/
theorem test_whole_end_states :
    [none, some { setting := high, stamp := 9, activation := 100 }].map (fun n =>
      ((after .frameWholeEnd (line (.announcement 1) (sending (setQueue [.ann (entry low none true 0)]
        (updGroup 1 (fun r => { r with next := n }) (active [] none (present 100 State.reset))))))).group 1).stated)
      = [some { setting := low, stamp := 1 }, some { setting := low, stamp := 1 }]
    ∧ (after .frameWholeEnd (line (.announcement 1) (sending (setQueue [.ann (entry low (some 100) true 0)]
        (active [layer .loadRelief .B (some 100)] (some { setting := high, stamp := 8 }) (present 100 State.reset)))))).disp.queue.map
          (fun e => match e with
            | .ann a => some a.content
            | _ => none) = [some high] := by decide +kernel
/-- R143: TEST over no relay at grade 2: 4 + 5 + 8 slots after count 100. -/
theorem test_whole_end_opens_the_window :
    (after .frameWholeEnd (line (.exchange 5) (withExch (exch5 .test .sending) (present 100 State.reset)))).exch.table.map
      (·.deadline) = [some 117] := by decide +kernel
/-- R115, R142: the exchange goes back to READY. -/
theorem test_collision_readies_the_exchange :
    (after (.collision .L2) (line (.exchange 5) (withExch (exch5 .test .sending) (present 95 State.reset)))).exch.ready = [5] := by
  decide +kernel
/-- R115: a phase that the frame does not drive is no collision. -/
theorem test_collision_on_another_phase :
    (after (.collision .L1) (line (.exchange 5) (withExch (exch5 .test .sending) (present 95 State.reset)))).tx.state
      = .sending := by decide +kernel
/-- R116 -/
theorem test_backoff_end :
    (after .backoffEnd ((present 100 State.reset).setTx { state := .backoff, frame := none, backoffEnd := some 100 })).tx
      = { state := .idle, frame := none, backoffEnd := none } := by decide +kernel
/-- R144: a timeout takes a retry and raises the fallback. -/
theorem test_answer_window :
    (after (.answerWindow 5) (withExch (exch5 .test .waiting) (present 40 State.reset))).exch.table.map
      (fun x => (x.state, x.retries, x.fallback)) = [(.ready, .limited 2, 1)] := by decide +kernel
/-- R149 -/
theorem test_hold : (after (.hold 5) (withExch (exch5 .test .held) (present 40 State.reset))).exch.ready = [5] := by decide +kernel
/-- R122: the lowest FREE buffer. -/
theorem test_preamble_takes_buffer_0 :
    (after (.preamble .L3 .g1) (present 100 State.reset)).rx.phases.l3 = .assembling 0 none := by decide +kernel
/-- R122: during the part's own frame the phase is IGNORING. -/
theorem test_preamble_under_own_carrier :
    (after (.preamble .L3 .g1) (line (.exchange 5) (present 99 State.reset))).rx.phases.l3 = .ignoring := by decide +kernel
/-- R108: a preamble behind a frame whose carrier has ended is line activity, and the phase is IGNORING after the frame (log 17). -/
theorem test_preamble_behind_a_frame :
    let s := after (.preamble .L1 .g1) (assembling (body 3 [5, 1]) true
      ((present 100 State.reset).setArb { (present 100 State.reset).arb with busy := false }))
    s.arb.busy = true ∧ (after (.frameCompletion .L1) s).rx.phases.l1 = .ignoring := by decide +kernel
/-- R124: an ANNOUNCE relayed is abandoned at its kind byte. -/
theorem test_body_byte_kind_1 :
    (after (.bodyByte .L1 1) (assembling [] false State.reset)).rx.phases.l1 = .ignoring := by decide +kernel
/-- R125: the frame completes at the crossing that closes the slot. -/
theorem test_carrier_end :
    (after (.carrierEnd .L1) (assembling (body 3 [5, 1]) false (present 99 State.reset))).rx.phases.l1
      = .assembling 2 (some 100) := by decide +kernel
/-- R126, R147: ACCEPT ends the exchange of tag 5 with unit 7. -/
theorem test_completion_accepts :
    ((after (.frameCompletion .L1) (assembling (body 3 [5, 1]) true (withExch (exch5 .test .waiting) (present 100 State.reset)))).port
      .A).notices.map (fun n => match n.body with
        | .orderEnded e => (e.ending, e.reference)
        | _ => (.cancelled, 0)) = [(.accepted, 3)] := by decide +kernel
/-- R130, R162: an event report is held, and teaches the route. -/
theorem test_completion_holds_an_event :
    ((after (.frameCompletion .L1) (assembling (body 4 [4, 2, 1, 2]) true (present 100 State.reset))).rx.heldOrder,
      (after (.frameCompletion .L1) (assembling (body 4 [4, 2, 1, 2]) true (present 100 State.reset))).routes.places.get 0)
        = ([2], some { unit := 7, path := [20], phase := .L1, grade := .g2, pinned := false, written := 100 }) := by
  decide +kernel

/-! ## The hypotheses of the statements can be met

One theorem for each statement that has hypotheses: a state and operands that meet them, clause by clause, at the edge of a
clause's range where it has one. The order is that of Certificates/Slice0/Obligations.lean. -/

theorem idle_of {p : Port} {s : State} (h : (s.port p).state = .idle) : PortIdle p s := h

theorem all_of {α : Type} {o : Option α} {P : α → Prop} [DecidablePred P] (h : (o.all fun x => decide (P x)) = true) :
    ∀ x, o = some x → P x := by
  rintro x rfl
  simpa using h

theorem next_of {c : Instr} {s : State} (h : (match exec c s with
    | .next _ => true
    | _ => false) = true) : ∃ t, exec c s = .next t := by
  revert h
  cases exec c s <;> simp

theorem owed_of {g : GroupNo} {s : State} (h : (match effectiveOf (s.group g).holding with
    | some e => (s.group g).stated.all fun x => decide (x.setting ≠ e)
    | none => false) = true) : Owed g s := by
  revert h
  cases he : effectiveOf (s.group g).holding with
  | none => simp
  | some e => exact fun h => ⟨e, he, all_of h⟩

theorem not_owed_of {g : GroupNo} {s : State} (h : (match effectiveOf (s.group g).holding with
    | some e => (s.group g).stated.any fun x => decide (x.setting = e)
    | none => true) = true) : ¬ Owed g s := by
  rintro ⟨e, he, hs⟩
  rw [he] at h
  cases hst : (s.group g).stated with
  | none => simp [hst] at h
  | some x => exact hs x hst (by simpa [hst] using h)

theorem debt_of {s : State} (h : ∀ g : GroupNo, (match effectiveOf (s.group g).holding with
    | some e => (s.group g).due || hasAnn g s || (s.group g).stated.any fun x => decide (x.setting = e)
    | none => true) = true) : DebtInv s := by
  rintro g ⟨e, he, hs⟩
  have hg := h g
  rw [he] at hg
  simp only [Bool.or_eq_true] at hg
  rcases hg with (hd | hq) | hst
  · exact Or.inl hd
  · right; left
    obtain ⟨q, hm, hq⟩ := List.any_eq_true.1 hq
    cases q with
    | ann a => exact ⟨a, hm, by simpa [isAnnOf] using hq⟩
    | order o => simp [isAnnOf] at hq
    | fence p => simp [isAnnOf] at hq
  · cases hst' : (s.group g).stated with
    | none => simp [hst'] at hst
    | some x => exact absurd (by simpa [hst'] using hst) (hs x hst')

theorem movesInv_of {s : State}
    (ho : (s.disp.queue.all fun e => match e with
      | .order _ => decide (8 ≤ s.exch.table.length)
      | _ => true) = true)
    (hf : (match s.disp.queue with
      | .fence _ :: _ => s.exch.table.any (·.fenceMark)
      | _ => true) = true) : MovesInv s := by
  refine ⟨fun hl ahead o behind hq _ => ?_, fun p behind hq => ?_⟩
  · rw [hq] at ho
    have h8 : 8 ≤ s.exch.table.length := by simpa using List.all_eq_true.1 ho (.order o) (by simp)
    omega
  · rw [hq] at hf
    obtain ⟨x, hx, hm⟩ := List.any_eq_true.1 hf
    exact ⟨x, hx, hm⟩

theorem unabsorbed {r : AnnReq} {s : State} (h : s.disp.queue.any (absorbs r s.count) = false) :
    ¬ (r.activation = none ∧ ∃ a v, Entry.ann a ∈ s.disp.queue ∧ a.group = r.group ∧ a.flavour = .new ∧ a.content = r.content
      ∧ a.activation = some v ∧ v ≤ s.count) := by
  rintro ⟨_, a, v, hm, hg, hf, hc, ha, hv⟩
  exact absurd h (by simpa using ⟨_, hm, by simp [absorbs, hg, hf, hc, ha, hv]⟩)

theorem none_eligible_of {s : State}
    (h : ((s.disp.queue.take 4).takeWhile fun e => !isFence e).all (fun e => match e with
      | .ann a => !eligible s a
      | _ => true) = true) : ∀ ahead a behind, s.disp.queue = ahead ++ .ann a :: behind → ahead.length < 4 →
      (∀ e ∈ ahead, isFence e = false) → eligible s a = false := by
  intro ahead a behind hq hl hf
  obtain ⟨k, hk⟩ : ∃ k, 4 - ahead.length = k + 1 := ⟨3 - ahead.length, by omega⟩
  have hm : Entry.ann a ∈ (s.disp.queue.take 4).takeWhile fun e => !isFence e := by
    rw [hq, List.take_append, List.take_of_length_le (by omega), hk, List.take_succ_cons,
      List.takeWhile_append_of_pos (fun e he => by simp [hf e he])]
    simp [isFence]
  simpa using List.all_eq_true.1 h _ hm

theorem routeInv_of {r : Route} {s : State} : RouteInv (withRoute r s).routes := by
  have h : ∀ i : Fin 64, i ≠ 3 → ((withRoute r s).routes.places.get i) = none := by
    intro i hi
    have : (3 : Nat) ≠ i.val := fun e => hi (Fin.ext e.symm)
    show ((Vector.replicate 64 none).set 3 (some r)).get i = none
    simp [Vector.get_eq_getElem, this]
  intro i j a b hi hj _
  have hi' : i = 3 := by
    by_contra hne
    rw [h i hne] at hi
    cases hi
  have hj' : j = 3 := by
    by_contra hne
    rw [h j hne] at hj
    cases hj
  rw [hi', hj']

/-- Entries of the groups from 2 on. -/
def others (n : Nat) : List Entry :=
  (List.range n).map fun i => .ann { entry low none false 1 with group := Fin.ofNat 64 (i + 2) }

/-- A queued order of a port. -/
def orderOf (p : Port) : Entry := .order { unit := 7, kind := .test, port := p, reference := 3 }

/-- A part at work: the announcement of group 1 on the line, an order behind it, an exchange waiting for its answer, two
schedule entries, a route, a held report with its receipt, a frame being assembled, and a whole end waiting to be judged. -/
def atWork : State :=
  (((assembling [3] false (line (.announcement 1) (sending (setQueue [.ann (entry low none true 1), orderOf .A]
    (withRoute (route 7 true) (withExch (exch5 .test .waiting)
      ((active [layer .loadRelief .B (some 200)] none (present 100 State.reset)).setSchedule
        [sched1 150 .none, sched1 200 .none]))))))).setPending [.frameWholeEnd]))

/-- The same with a report held in buffer 0 and its receipt queued. -/
def atWork2 : State :=
  atWork.setRx { atWork.rx with
    pool := atWork.rx.pool.set 0 (.held report7), heldOrder := [0]
    receipts := [{ unit := 7, number := 4, path := [20], grade := .g2, onLine := false }] }

/-- StepRunsFrontCommand: a command in front, and an empty queue. -/
theorem witness_step : atWork.pending = .frameWholeEnd :: [] ∧ State.reset.pending = [] := by decide +kernel

/-- StepKeepsLimits, StepKeepsLine, StepKeepsQueueLaw, StepKeepsExchanges, StepKeepsReceiver: one state meets every invariant, and
its step answers a next state. -/
theorem witness_step_next : ∃ t, step atWork2 = .next t := by
  have h : step atWork2 = exec .frameWholeEnd (atWork2.setPending []) := by rfl
  rw [h]
  exact next_of (by decide +kernel)

theorem witness_limits : Inv atWork2 where
  queue := by decide +kernel
  works := by decide +kernel
  table := by decide +kernel
  receipts := by decide +kernel
  schedule := by decide +kernel
  layers := by decide +kernel
  history := by decide +kernel
  ports := fun p => by
    cases p <;> constructor <;> decide +kernel
  waits := fun p => by cases p <;> decide +kernel

theorem witness_schedule_and_routes : ScheduleInv atWork2 ∧ RouteInv atWork2.routes :=
  ⟨⟨by decide +kernel, by decide +kernel⟩, routeInv_of (r := route 7 true) (s := State.reset)⟩

theorem witness_line : LineInv atWork2 where
  frame := by decide +kernel
  backoff := by decide +kernel
  holder := by decide +kernel
  sending := all_of (by decide +kernel)
  announcing := by decide +kernel
  mains := by decide +kernel
  station := by decide +kernel

theorem witness_queue : QueueInv atWork2 where
  apart := by
    refine ⟨by decide +kernel, ?_⟩
    exact trivial
  inFlight := by decide +kernel
  active := by
    intro a h
    have h' : Entry.ann a ∈ [Entry.ann (entry low none true 1), orderOf .A] := h
    simp [orderOf] at h'
    subst h'
    decide +kernel
  stamp := by
    intro a h _
    have h' : Entry.ann a ∈ [Entry.ann (entry low none true 1), orderOf .A] := h
    simp [orderOf] at h'
    subst h'
    decide +kernel
  inactive := by decide +kernel
  sending := all_of (by decide +kernel)

theorem witness_exchanges : ExchInv atWork2 where
  tags := by decide +kernel
  readyOnce := by decide +kernel
  ready := by
    intro t
    constructor
    · intro h
      exact absurd (show t ∈ ([] : List Tag) from h) (by simp)
    · rintro ⟨x, hx, -, h⟩
      have hx' : x ∈ [exch5 .test .waiting] := hx
      simp at hx'
      subst hx'
      cases h
  sending := by decide +kernel
  holder := fun t h => by cases h
  attempt := by decide +kernel
  deadline := by decide +kernel
  holdUntil := by decide +kernel
  cancelPending := by decide +kernel

theorem witness_receiver : RxInv atWork2 where
  phase := by
    intro ph i e h
    cases ph
    · have h' : PhaseState.assembling 2 none = .assembling i e := h
      cases h'
      exact ⟨_, rfl, rfl⟩
    · cases (show PhaseState.quiet = .assembling i e from h)
    · cases (show PhaseState.quiet = .assembling i e from h)
  buffer := by
    intro i f h
    match i, h with
    | 0, h => cases (show Buffer.held report7 = .assembling f from h)
    | 1, h => cases (show Buffer.free = .assembling f from h)
    | 2, h => cases h; exact ⟨none, rfl⟩
    | 3, h => cases (show Buffer.free = .assembling f from h)
  again := by
    intro ph h
    cases ph <;> exact absurd h (by decide +kernel)
  heldOnce := by decide +kernel
  held := by
    intro i
    match i with
    | 0 => exact ⟨fun _ => ⟨report7, rfl⟩, fun _ => by decide +kernel⟩
    | 1 => exact ⟨fun h => absurd h (by decide +kernel), fun ⟨r, h⟩ => by cases (show Buffer.free = .held r from h)⟩
    | 2 => exact ⟨fun h => absurd h (by decide +kernel), fun ⟨r, h⟩ => by cases h⟩
    | 3 => exact ⟨fun h => absurd h (by decide +kernel), fun ⟨r, h⟩ => by cases (show Buffer.free = .held r from h)⟩
  reserve := by decide +kernel
  receipts := by decide +kernel
  onLine := by decide +kernel
  holder := fun u n h => by cases h

/-- StepLeavesNothingUndone: an announcement owed and queued ahead of a fence, an order behind it, an exchange free; and a fence at
the head that a live exchange holds. -/
theorem witness_undone :
    let s := (setQueue [.ann (entry low none false 1), .fence .A, orderOf .A]
      (active [] none (present 100 State.reset))).setPending [.openingOfReach]
    let u := setQueue [.fence .A, orderOf .A] (withExch { exch5 .test .waiting with fenceMark := true } State.reset)
    (DebtInv s ∧ MovesInv s ∧ s.exch.table.length < 8 ∧ Owed 1 s ∧ ∃ t, step s = .next t) ∧ MovesInv u := by
  refine ⟨⟨debt_of (by decide +kernel), ⟨fun _ ahead o behind h _ => ?_, fun p behind h => ?_⟩, by decide +kernel,
    owed_of (by decide +kernel), ?_⟩, ⟨fun _ ahead o behind h _ => ?_, fun p behind h => ?_⟩⟩
  · have h' : [Entry.ann (entry low none false 1), .fence .A, orderOf .A] = ahead ++ .order o :: behind := h
    match ahead, h' with
    | [], h' => simp at h'
    | [_], h' => simp at h'
    | _ :: e :: es, h' =>
      simp only [List.cons_append, List.cons.injEq] at h'
      exact ⟨e, by simp, by rw [← h'.2.1]; rfl⟩
  · cases h
  · exact next_of (c := .openingOfReach) (s := (setQueue [.ann (entry low none false 1), .fence .A, orderOf .A]
      (active [] none (present 100 State.reset)))) (by decide +kernel)
  · have h' : [Entry.fence .A, orderOf .A] = ahead ++ .order o :: behind := h
    match ahead, h' with
    | [], h' => simp at h'
    | e :: es, h' =>
      simp only [List.cons_append, List.cons.injEq] at h'
      exact ⟨e, by simp, by rw [← h'.1]; rfl⟩
  · exact ⟨_, List.mem_cons_self .., rfl⟩

/-- OnlyTheseCommandsChange -/
theorem witness_only_these : (∃ t, exec (.snap .A [1]) State.reset = .next t) ∧ portOf (.snap .A [1]) ≠ some .B
    ∧ Instr.snap .A [1] ≠ .powerOnReset := ⟨next_of (by decide +kernel), by decide, by decide⟩

/-- PinnedRouteStays -/
theorem witness_pinned : (∃ t, exec (.rflsh .A []) (withRoute (route 7 true) State.reset) = .next t)
    ∧ (withRoute (route 7 true) State.reset).routes.places.get 3 = some (route 7 true) ∧ (route 7 true).pinned = true
    ∧ (∀ p f, Instr.rflsh .A [] ≠ .rpin p f) ∧ (∀ p f, Instr.rflsh .A [] ≠ .rfree p f) ∧ Instr.rflsh .A [] ≠ .powerOnReset :=
  ⟨next_of (by decide +kernel), by decide +kernel, rfl, fun _ _ h => (by cases h), fun _ _ h => (by cases h), by decide⟩

/-- Group 1 ACTIVE and owed an announcement, with nothing queued. -/
def owing : State := active [] none (present 100 State.reset)

/-- LineResetClearsTheLine: a part at work; the debt that it leaves group 1; an announcement in flight with next stated ahead, and
next stated at this very count with one in flight and with none; the other port waiting; a QUEUE SPACE mark, an order and an exchange of a port that does not shed;
and a carrier behind a frame whose own has ended. -/
theorem witness_line_reset :
    let n : Count → NextStated := fun v => { setting := low, stamp := 9, activation := v }
    let s := (atWork2.setWaits { a := none, b := some { group := 1, limit := 200 } }).setDisp
      { atWork2.disp with spaceMarks := { a := true, b := false } }
    let u := fun v => updGroup 1 (fun r => { r with next := some (n v) }) s
    let r := assembling [3] true State.reset
    let o := setQueue [orderOf .A] (State.reset.setDisp { s.disp with sending := none })
    let x := withExch (exch5 .test .waiting) State.reset
    (PortIdle .A s ∧ PortIdle .A owing ∧ Owed 1 (after (.lreset .A []) owing))
      ∧ (((u 101).group 1).next = some (n 101) ∧ (u 101).count < (n 101).activation
        ∧ ∃ e ∈ (u 101).disp.queue, isInFlight 1 e = true)
      ∧ (((u 100).group 1).next = some (n 100) ∧ (n 100).activation ≤ (u 100).count
        ∧ ∃ e ∈ (u 100).disp.queue, isInFlight 1 e = true)
      ∧ (((setQueue [] (u 100)).group 1).next = some (n 100) ∧ (n 100).activation ≤ (setQueue [] (u 100)).count
        ∧ ∀ e ∈ (setQueue [] (u 100)).disp.queue, isInFlight 1 e = false)
      ∧ (s.waits.get (otherPort .A) = some { group := 1, limit := 200 } ∧ PortIdle .A o ∧ o.disp.spaceMarks.get .A = true
        ∧ o.disp.queue = [orderOf .A] ∧ ((after (.lreset .A []) o).port .A).shedding = false
        ∧ ((after (.lreset .A []) o).port (otherPort .A)).shedding = false)
      ∧ (PortIdle .A x ∧ (x.exch.table.map (·.tag)).Nodup ∧ (∃ y ∈ x.exch.table, y.port = .A)
        ∧ ((after (.lreset .A []) x).port .A).shedding = false)
      ∧ ((r.setRx { r.rx with again := r.rx.again.set .L1 true }).rx.phases.get .L1 = .assembling 2 (some 100)) := by
  refine ⟨⟨idle_of (by decide +kernel), idle_of (by decide +kernel), owed_of (by decide +kernel)⟩, by decide +kernel,
    by decide +kernel, by decide +kernel, ⟨by decide +kernel, idle_of (by decide +kernel), by decide +kernel⟩,
    ⟨idle_of (by decide +kernel), by decide +kernel⟩, by decide +kernel⟩

/-- PortResetActsOnItsPortAlone -/
theorem witness_preset : PortIdle .B atWork2 := idle_of (by decide +kernel)

/-- WriteIsTakenRefusedOrDiscarded: 70 field bytes, 71 field bytes, a busy port. -/
theorem witness_write : PortIdle .A State.reset
    ∧ openEnvelope (messageOf .sbase (List.replicate 70 0)) = some { kind := .sbase, fields := List.replicate 70 0 }
    ∧ openEnvelope (messageOf .sbase (List.replicate 71 0)) = none ∧ openEnvelope [] = none
    ∧ ¬ PortIdle .A (after (.time .A []) State.reset) :=
  ⟨idle_of (by decide +kernel), by decide +kernel, by decide +kernel, by decide +kernel,
    show ¬ ((after (.time .A []) State.reset).port .A).state = .idle by decide +kernel⟩

/-- ReadReturnsStatusAndResponse: an answered port and one that is not. -/
theorem witness_read : (∃ r, ((after (.time .A []) State.reset).port .A).state = .answered
    ∧ ((after (.time .A []) State.reset).port .A).slot = some r) ∧ (State.reset.port .A).state ≠ .answered :=
  ⟨⟨_, by decide +kernel, rfl⟩, by decide +kernel⟩

/-- RequestsRoundTrip: every value at the top of its range. -/
theorem witness_round_trip : (List.replicate 70 (0 : Byte)).length ≤ 70
    ∧ openEnvelope [28, 0] = some { kind := .preset, fields := [] } ∧ (2 ^ 40 - 1 < 2 ^ 40 ∧ 255 < 256)
    ∧ unitValid 16777214 = true ∧ [1, 2, 16777214].length ≤ 3 ∧ [1, 2, 16777214].all unitValid = true := by decide +kernel

/-- RequestRowIsWriteThenAct: the longest fields on an IDLE port, and a port that is not IDLE. -/
theorem witness_request_row : PortIdle .A State.reset ∧ (List.replicate 70 (0 : Byte)).length ≤ 70
    ∧ ¬ PortIdle .A (after (.time .A []) State.reset)
    ∧ ((after (.time .A []) State.reset).port .A).inHand ≠ some { kind := .time, fields := [] } :=
  ⟨idle_of (by decide +kernel), by decide,
    show ¬ ((after (.time .A []) State.reset).port .A).state = .idle by decide +kernel, by decide +kernel⟩

/-- MalformedChangesNothing: one field byte too many for an envelope, and one that TIME does not take. -/
theorem witness_malformed : PortIdle .A State.reset ∧ 70 < (List.replicate 71 (0 : Byte)).length
    ∧ fieldsRead .time [0] = false := ⟨idle_of (by decide +kernel), by decide, by decide +kernel⟩

/-- MalformedChangesNothing: a group 64, the classes 0 and 4; CONFs that name none, the station twice, and a port 3. -/
theorem witness_malformed_fields :
    63 < (64 : Byte).toNat ∧ (0 : Byte).toNat = 0 ∧ 3 < (4 : Byte).toNat ∧ (1 : Byte) ≠ 0
      ∧ Spells (layConf []) []
      ∧ (Spells (layConf [(.station, 16777214), (.station, 1)]) [1, 255, 255, 254, 1, 0, 0, 1]
        ∧ ¬ ([(ParamId.station, 16777214), (.station, 1)].map Prod.fst).Nodup)
      ∧ Spells (layConf [(.reportPort, 3)]) [11, 0, 3] :=
  ⟨by decide, by decide, by decide, by decide, rfl,
    ⟨⟨[1], _, rfl, rfl, by decide, [255, 255, 254], _, rfl, rfl, by decide, [1], _, rfl, rfl, by decide, [0, 0, 1], [], rfl, rfl,
      by decide, rfl⟩, by decide⟩,
    ⟨[11], _, rfl, rfl, by decide, [0, 3], [], rfl, rfl, by decide, rfl⟩⟩

/-- CheckMeetsTheDebt: the debt after the check; and each ground for asking nothing. -/
theorem witness_check : Owed 1 (check 1 owing).state ∧ Owed 1 (closeAsked (check 1 owing))
    ∧ ((updGroup 1 (fun r => { r with due := true }) owing).group 1).next = none
    ∧ ((updGroup 1 (fun r => { r with due := true }) owing).group 1).due = true
    ∧ (State.reset.group 1).next = none ∧ effectiveOf (State.reset.group 1).holding = none
    ∧ ((active [] (some { setting := low, stamp := 1 }) State.reset).group 1).next = none
    ∧ effectiveOf ((active [] (some { setting := low, stamp := 1 }) State.reset).group 1).holding = some low
    ∧ ((active [] (some { setting := low, stamp := 1 }) State.reset).group 1).stated = some { setting := low, stamp := 1 }
    ∧ (active [] (some { setting := low, stamp := 1 }) State.reset).disp.queue = []
    ∧ ((setQueue [.ann (entry low none false 1)] owing).group 1).next = none
    ∧ effectiveOf ((setQueue [.ann (entry low none false 1)] owing).group 1).holding = some low
    ∧ ((setQueue [.ann (entry low none false 1)] owing).group 1).stated = none
    ∧ Entry.ann (entry low none false 1) ∈ (setQueue [.ann (entry low none false 1)] owing).disp.queue := by
  refine ⟨owed_of (by decide +kernel), owed_of (by decide +kernel), ?_⟩
  decide +kernel

/-- A NEW request of group 1 for `high`. -/
def ask (v : Option Count) : AnnReq := { group := 1, content := high, activation := v, origin := some .B, repeats := 2 }

/-- RequestIsAbsorbedMergedAppendedOrRefused: an entry reached at this very count; an immediate entry in the last segment, and a
timed one with an entry of the group before the fence; 15 entries, and a last segment with none of the group; 16 entries. -/
theorem witness_request :
    (let s := setQueue [.fence .A, .ann (entry high (some 100) false 1)] owing;
      (∀ e ∈ s.disp.queue, isInFlight (ask none).group e = false) ∧ (ask none).activation = none
        ∧ Entry.ann (entry high (some 100) false 1) ∈ s.disp.queue ∧ (entry high (some 100) false 1).group = (ask none).group
        ∧ (entry high (some 100) false 1).content = (ask none).content ∧ 100 ≤ s.count)
    ∧ (let front := [Entry.ann (entry low none false 1), .fence .A];
      let s := fun x => setQueue (front ++ ([] ++ .ann x :: [orderOf .A])) owing;
      let good := fun x : Ann => (s x).disp.queue = front ++ ([] ++ .ann x :: [orderOf .A]) ∧ front.getLast? = some (.fence .A)
        ∧ (∀ e ∈ (s x).disp.queue, isInFlight (ask none).group e = false) ∧ x.group = (ask none).group
        ∧ (∀ e ∈ [] ++ .ann x :: [orderOf .A], isFence e = false)
        ∧ (s x).disp.queue.any (absorbs (ask none) (s x).count) = false;
      good (entry low none false 1) ∧ good (entry high (some 101) false 1))
    ∧ (let s := setQueue (others 15) owing;
      (∀ e ∈ s.disp.queue, isInFlight 1 e = false) ∧ (∀ e ∈ s.disp.queue, isAnnOf 1 e = false) ∧ s.disp.queue.length < 16
        ∧ (∀ e ∈ s.disp.queue, isFence e = false) ∧ s.disp.queue.any (absorbs (ask none) s.count) = false)
    ∧ (let s := setQueue ([.ann (entry low none false 1), .fence .A] ++ [orderOf .A]) owing;
      (∀ e ∈ s.disp.queue, isInFlight 1 e = false) ∧ (∀ e ∈ [orderOf .A], isAnnOf 1 e = false ∧ isFence e = false)
        ∧ s.disp.queue.any (absorbs (ask none) s.count) = false)
    ∧ (let s := setQueue (others 16) owing;
      (∀ e ∈ s.disp.queue, isInFlight 1 e = false) ∧ (∀ e ∈ s.disp.queue, isAnnOf 1 e = false) ∧ 16 ≤ s.disp.queue.length
        ∧ (∀ e ∈ s.disp.queue, isFence e = false) ∧ s.disp.queue.any (absorbs (ask none) s.count) = false) := by
  decide +kernel

/-- RequestIsAbsorbedMergedAppendedOrRefused: an entry in flight, of the content asked for, its activation count come. -/
theorem witness_absorbed_in_flight :
    let a := entry high (some 100) true 1
    let s := setQueue [.ann a] owing
    (ask none).activation = none ∧ Entry.ann a ∈ s.disp.queue ∧ a.group = (ask none).group ∧ a.flavour = .new
      ∧ a.content = (ask none).content ∧ a.activation = some 100 ∧ 100 ≤ s.count ∧ isInFlight 1 (.ann a) = true := by
  decide +kernel

/-- RequestCutsShortTheEntryInFlight: a full queue whose entry of group 1 is on the line: immediate with other content, timed with
the content asked for and its count one slot ahead, and CATCH-UP; and one with a timed entry of the group behind a fence. -/
theorem witness_cut_short :
    let s := fun a => line (.announcement 1) (sending (setQueue (others 7 ++ .ann a :: others 8) owing))
    let good := fun a : Ann => (s a).disp.queue = others 7 ++ .ann a :: others 8 ∧ a.group = (ask none).group ∧ a.started = true
      ∧ (s a).disp.queue.length ≤ 16 ∧ a.origin = some .A ∧ (s a).disp.sending.map (·.group) = some 1
      ∧ (s a).disp.queue.any (absorbs (ask none) (s a).count) = false
    let b := entry high (some 101) false 1
    let m := setQueue ([] ++ .ann (entry low none true 1) :: [.fence .A, .ann b]) owing
    (good (entry low none true 1) ∧ good (entry high (some 101) true 1) ∧ good { entry low none true 0 with flavour := .catchUp })
      ∧ (∀ e ∈ others 7 ++ others 8, isAnnOf 1 e = false ∧ isFence e = false ∧ isInFlight 1 e = false)
      ∧ (m.disp.queue = [] ++ .ann (entry low none true 1) :: [.fence .A, .ann b] ∧ m.disp.queue.length ≤ 16
        ∧ [] ++ [Entry.fence .A, .ann b] = [.fence .A] ++ ([] ++ .ann b :: []) ∧ b.group = (ask none).group
        ∧ (∀ e ∈ [] ++ [Entry.fence .A, .ann b], isInFlight 1 e = false) ∧ (∀ e ∈ [] ++ Entry.ann b :: [], isFence e = false)
        ∧ m.disp.queue.any (absorbs (ask none) m.count) = false) := by decide +kernel

/-- Where no entry absorbs the request, it is not absorbed. -/
theorem witness_unabsorbed : ¬ ((ask none).activation = none ∧ ∃ a v, Entry.ann a ∈ (setQueue (others 16) owing).disp.queue
    ∧ a.group = (ask none).group ∧ a.flavour = .new ∧ a.content = (ask none).content ∧ a.activation = some v
    ∧ v ≤ (setQueue (others 16) owing).count) := unabsorbed (by decide +kernel)

/-- A setting in its ranges goes on as it stands. -/
theorem ranged_in {p : Port} {k : ReqKind} {g : GroupNo} {s : State} : Ranged p k g high high false s s :=
  Or.inl ⟨by decide, rfl, rfl, rfl⟩

/-- A rate of 9 is clamped to 8 where the port masks RANGE. -/
theorem ranged_out {p : Port} {k : ReqKind} {g : GroupNo} {s : State} (h : (s.port p).mask.range = true) :
    Ranged p k g { high with rate := 9 } high true s (updPort p (fun c => c.record1 .range k g) s) :=
  Or.inr ⟨by decide, h, by decide, rfl, rfl⟩

/-- SbaseSetsTheBaseLayer: settings at both ends of their ranges and just outside them, RANGE masked and unmasked. -/
theorem witness_sbase : PortIdle .A State.reset ∧ readSbase [1, 8, 15, 9] = some (1, high) ∧ readSbase [1, 1, 0, 0] = some (1, low)
    ∧ readSbase [63, 0, 0, 9] = some (63, { rate := 0, relays := 0, level := 9 })
    ∧ readSbase [0, 8, 0, 10] = some (0, { rate := 8, relays := 0, level := 10 }) ∧ (State.reset.port .A).mask.range = true
    ∧ PortIdle .A (updPort .A (fun c => { c with mask := CondSet.clear }) State.reset)
    ∧ ((updPort .A (fun c => { c with mask := CondSet.clear }) State.reset).port .A).mask.range = false
    ∧ isActive (State.reset.group 1).holding = false ∧ Owed 1 (after (.sbase .A [1, 8, 15, 9]) State.reset) :=
  by refine ⟨idle_of ?_, ?_, ?_, ?_, ?_, ?_, idle_of ?_, ?_, ?_, owed_of ?_⟩ <;> decide +kernel

/-- The fields of a PUSHL for group 1 with `high` and the expiry 101, or 100. -/
def pushed (c : OverrideClass) (e : Option Count) : PushFields := { group := 1, cls := c, setting := high, expiry := e }

/-- PushlEntersTheLayer: six layers held, one of a higher class, one of the same, and an expiry one slot ahead; a setting in its
ranges and one past them. -/
theorem witness_pushl :
    let above := [layer .networkEmergency .A none]
    let below := layer .loadRelief .A none :: List.replicate 4 (layer .priceEvent .A none)
    let s := active (above ++ below) none (present 100 State.reset)
    PortIdle .B s ∧ readPushl [1, 2, 8, 15, 9, 1, 0, 0, 0, 0, 101] = some (pushed .loadRelief (some 101))
      ∧ readPushl [1, 2, 9, 15, 9, 1, 0, 0, 0, 0, 101]
        = some { pushed .loadRelief (some 101) with setting := { high with rate := 9 } }
      ∧ (s.group 1).holding = .active { setting := low, origin := .port .A } (above ++ below) ∧ (above ++ below).length < 7
      ∧ (∀ o ∈ above, classNo OverrideClass.loadRelief < classNo o.cls)
      ∧ (∀ o ∈ below, classNo o.cls ≤ classNo OverrideClass.loadRelief)
      ∧ Ranged .B .pushl 1 high high false s s
      ∧ (∃ u, Ranged .B .pushl 1 { high with rate := 9 } high true s u)
      ∧ (∀ e, (pushed .loadRelief (some 101)).expiry = some e → s.count < e)
      ∧ Owed 1 (after (.pushl .B [1, 2, 8, 15, 9, 1, 0, 0, 0, 0, 101]) s) :=
  by
    refine ⟨idle_of ?_, ?_, ?_, ?_, ?_, ?_, ?_, ranged_in, ⟨_, ranged_out ?_⟩, all_of ?_, owed_of ?_⟩ <;> decide +kernel

/-- PushlMeetsItsConditions: INACTIVE; RANGE; PAST at this very count, with a setting in its ranges and with one past them; and 7
layers with OVERFLOW unmasked, masked below all, masked above one. -/
theorem witness_pushl_conditions :
    let clear := fun s => updPort .A (fun c => { c with mask := CondSet.clear }) s
    let full := fun c => active (List.replicate 6 (layer .loadRelief .B none) ++ [layer c .B none]) none (present 100 State.reset)
    let bad : Setting := { high with rate := 9 }
    (PortIdle .A State.reset ∧ readPushl [1, 2, 8, 15, 9, 0] = some (pushed .loadRelief none)
        ∧ isActive (State.reset.group 1).holding = false)
      ∧ (PortIdle .A (clear owing) ∧ readPushl [1, 2, 9, 15, 9, 0] = some { pushed .loadRelief none with setting := bad }
        ∧ isActive ((clear owing).group 1).holding = true ∧ bad.inRange = false ∧ ((clear owing).port .A).mask.range = false)
      ∧ (PortIdle .A owing
        ∧ readPushl [1, 2, 9, 15, 9, 1, 0, 0, 0, 0, 100] = some { pushed .loadRelief (some 100) with setting := bad }
        ∧ isActive (owing.group 1).holding = true ∧ 100 ≤ owing.count ∧ (owing.port .A).mask.range = true)
      ∧ (readPushl [1, 1, 8, 15, 9, 0] = some (pushed .priceEvent none)
        ∧ (List.replicate 6 (layer .loadRelief .B none)).length = 6
        ∧ ((full .loadRelief).group 1).holding = .active { setting := low, origin := .port .A }
            (List.replicate 6 (layer .loadRelief .B none) ++ [layer .loadRelief .B none])
        ∧ ((clear (full .loadRelief)).port .A).mask.overflow = false ∧ ((full .loadRelief).port .A).mask.overflow = true
        ∧ (∀ o ∈ List.replicate 6 (layer .loadRelief .B none) ++ [layer .loadRelief .B none],
            classNo OverrideClass.priceEvent < classNo o.cls)
        ∧ ∃ o ∈ List.replicate 6 (layer .loadRelief .B none) ++ [layer .priceEvent .B none],
            classNo o.cls ≤ classNo OverrideClass.priceEvent)
      ∧ Ranged .A .pushl 1 high high false owing owing ∧ ∃ u, Ranged .A .pushl 1 bad high true owing u := by
  refine ⟨⟨idle_of (by decide +kernel), ?_⟩, ⟨idle_of (by decide +kernel), ?_⟩, ⟨idle_of (by decide +kernel), ?_⟩, ?_, ranged_in,
    ⟨_, ranged_out (by decide +kernel)⟩⟩ <;> decide +kernel

/-- DroplRemovesOwnHighestLayer: INACTIVE; no layer of the port and class; one of each. -/
theorem witness_dropl :
    let s := active ([layer .networkEmergency .B none] ++ layer .loadRelief .A none :: [layer .loadRelief .A none]) none State.reset
    PortIdle .A State.reset ∧ readDropl [1, 0] = some (1, none) ∧ isActive (State.reset.group 1).holding = false
      ∧ PortIdle .A s ∧ readDropl [1, 1, 3] = some (1, some .networkEmergency)
      ∧ (∀ o ∈ overridesOf (s.group 1).holding, ¬ (o.origin = .A ∧ ∀ k, some OverrideClass.networkEmergency = some k → o.cls = k))
      ∧ readDropl [1, 1, 2] = some (1, some .loadRelief)
      ∧ (s.group 1).holding = .active { setting := low, origin := .port .A }
          ([layer .networkEmergency .B none] ++ layer .loadRelief .A none :: [layer .loadRelief .A none])
      ∧ (∀ x ∈ [layer .networkEmergency .B none], ¬ (x.origin = .A ∧ ∀ k, some OverrideClass.loadRelief = some k → x.cls = k))
      ∧ (layer .loadRelief .A none).origin = .A ∧ ∀ k, some OverrideClass.loadRelief = some k → (layer .loadRelief .A none).cls = k := by
  refine ⟨idle_of (by decide +kernel), by decide +kernel, by decide +kernel, idle_of (by decide +kernel), by decide +kernel, ?_,
    by decide +kernel, by decide +kernel, ?_, rfl, fun k h => by cases h; rfl⟩
  · intro o ho
    have ho' : o ∈ [layer .networkEmergency .B none, layer .loadRelief .A none, layer .loadRelief .A none] := ho
    simp at ho'
    rcases ho' with rfl | rfl <;> simp [layer]
  · simp [layer]

/-- GoffDeactivatesTheGroup: INACTIVE; ACTIVE with the other port waiting for the group; next stated one slot ahead, and at this
very count, with the COMPLETED mark of its entry. -/
theorem witness_goff :
    let s := owing.setWaits { a := none, b := some { group := 1, limit := 65635 } }
    let n : Count → NextStated := fun v => { setting := high, stamp := 9, activation := v }
    let u := fun v => (updGroup 1 (fun r => { r with next := some (n v) }) owing).setSchedule [sched1 v .completed]
    PortIdle .A State.reset ∧ readGroupOnly [1] = some 1 ∧ isActive (State.reset.group 1).holding = false
      ∧ PortIdle .A s ∧ isActive (s.group 1).holding = true ∧ s.waits.get (otherPort .A) = some { group := 1, limit := 65635 }
      ∧ (PortIdle .A (u 101) ∧ ((u 101).group 1).next = some (n 101) ∧ (u 101).count < (n 101).activation)
      ∧ (PortIdle .A (u 100) ∧ ((u 100).group 1).next = some (n 100) ∧ (n 100).activation ≤ (u 100).count
        ∧ sched1 100 .completed ∈ (u 100).schedule) :=
  ⟨idle_of (by decide +kernel), by decide +kernel, by decide +kernel, idle_of (by decide +kernel), by decide +kernel,
    by decide +kernel, ⟨idle_of (by decide +kernel), by decide +kernel, by decide +kernel⟩, idle_of (by decide +kernel),
    by decide +kernel, by decide +kernel, by decide +kernel⟩

/-- GoffDeactivatesTheGroup: a pre-announcement on the line, with the QUEUED mark of its entry and an entry of another group. -/
theorem witness_goff_in_flight :
    let a := entry high (some 300) true 1
    let f : SchedEntry := { sched1 400 .queued with group := 2 }
    let s := line (.announcement 1) (sending (setQueue ([orderOf .A] ++ .ann a :: []) (owing.setSchedule [sched1 300 .queued, f])))
    PortIdle .A s ∧ isActive (s.group 1).holding = true ∧ s.disp.queue = [orderOf .A] ++ .ann a :: [] ∧ a.group = 1
      ∧ a.started = true ∧ (∀ e ∈ [orderOf .A] ++ [], isInFlight 1 e = false) ∧ a.origin = some .A
      ∧ ((s.port .A).shedding = false ∧ (s.port .A).notices.length < 15) ∧ s.disp.sending.map (·.group) = some 1
      ∧ (sched1 300 .queued ∈ s.schedule ∧ a.activation = some 300) ∧ f ∈ s.schedule ∧ f.group ≠ 1
      ∧ (s.group f.group).due = false := by
  refine ⟨idle_of (by decide +kernel), ?_⟩
  decide +kernel

/-- GreadShowsTheRecord: an ACTIVE group with layers and an INACTIVE one, the start at both ends. -/
theorem witness_gread : PortIdle .A atWork2 ∧ readGread [1, 0] = some (1, 0) ∧ readGread [2, 1, 255] = some (2, 255)
    ∧ (atWork2.group 1).holding = .active { setting := low, origin := .port .A } [layer .loadRelief .B (some 200)]
    ∧ (atWork2.group 2).holding = .inactive :=
  ⟨idle_of (by decide +kernel), by decide +kernel, by decide +kernel, by decide +kernel, by decide +kernel⟩

/-- GwaitAnswersOrWaits: INACTIVE, settled, unsettled; a wait whose group is left settled, and one whose group is not; the limit at this very count, and one slot ahead. -/
theorem witness_gwait :
    let settled := active [] (some { setting := low, stamp := 1 }) (present 100 State.reset)
    let queued := setQueue [.ann (entry low none false 0)] owing
    let waiting := fun l => owing.setWaits { a := some { group := 1, limit := l }, b := none }
    (PortIdle .A State.reset ∧ readGroupOnly [1] = some 1 ∧ isActive (State.reset.group 1).holding = false)
      ∧ (PortIdle .A settled ∧ isActive (settled.group 1).holding = true ∧ (readGroup 1 0 settled).settled = true)
      ∧ (PortIdle .A queued ∧ isActive (queued.group 1).holding = true ∧ (readGroup 1 0 queued).settled = false)
      ∧ ((waiting 101).waits.get .A = some { group := 1, limit := 101 }
        ∧ (readGroup 1 0 (closeEvent 0 (waiting 101))).settled = true
        ∧ (readGroup 1 0 (closeEvent 0 (setQueue [.ann (entry low none false 0)] (waiting 101)))).settled = false)
      ∧ ((waiting 100).waits.get .A = some { group := 1, limit := 100 } ∧ 100 ≤ (waiting 100).count)
      ∧ ∀ w, (waiting 101).waits.get .A = some w → (waiting 101).count < w.limit := by
  refine ⟨⟨idle_of (by decide +kernel), ?_⟩, ⟨idle_of (by decide +kernel), ?_⟩, ⟨idle_of (by decide +kernel), ?_⟩, ?_, ?_,
    all_of (by decide +kernel)⟩ <;> decide +kernel

/-- GroupTimersAct: two expiries at this very count around a later one, with one place short of shedding; expiries ahead; next
stated at this very count; and ahead; and a setting left to an activation at this very count, by an application and by an expiry. -/
theorem witness_timers :
    let os := [layer .networkEmergency .B (some 100), layer .loadRelief .B (some 101), layer .priceEvent .B (some 100)]
    let s := updPort .B (fun c => { c with notices := List.replicate 13 { count := 0, body := .queueSpace } })
      (active os none (present 100 State.reset))
    let n : Count → NextStated := fun v => { setting := high, stamp := 9, activation := v }
    let u := fun v => updGroup 1 (fun r => { r with next := some (n v) }) owing
    let e := (u 100).setSchedule [sched1 100 .completed]
    let z := (active [layer .loadRelief .B (some 100)] (some { setting := high, stamp := 7 }) (present 100 State.reset)).setSchedule
      [sched1 100 .none]
    ((s.group 1).holding = .active { setting := low, origin := .port .A } os
        ∧ layer .priceEvent .B (some 100) ∈ os ∧ (layer .priceEvent .B (some 100)).expiry = some 100 ∧ 100 ≤ s.count
        ∧ (s.port .B).shedding = false
        ∧ (s.port .B).notices.length
          + (os.filter fun o => expiryPast o.expiry s.count && decide (o.origin = .B)).length ≤ 15)
      ∧ (∀ o ∈ overridesOf ((active [layer .priceEvent .B (some 101)] none (present 100 State.reset)).group 1).holding,
          ∀ e, o.expiry = some e → (present 100 State.reset).count < e)
      ∧ (((u 100).group 1).next = some (n 100) ∧ (n 100).activation ≤ (u 100).count
        ∧ (∀ e ∈ (u 100).disp.queue, isAnnOf 1 e = false))
      ∧ effectiveOf (((withHolding 1 (.active { setting := high, origin := .schedule } []) (u 100)).group 1).holding)
        = some (n 100).setting
      ∧ Owed 1 (after (.applicationOfNextStated 1) (u 100)) ∧ Owed 1 (after (.applicationOfNextStated 1) e)
      ∧ Owed 1 (after (.layerExpiry 1) z)
      ∧ (∀ x, ((u 101).group 1).next = some x → (u 101).count < x.activation) := by
  refine ⟨by decide +kernel, ?_, by decide +kernel, by decide +kernel, owed_of (by decide +kernel), owed_of (by decide +kernel),
    owed_of (by decide +kernel), all_of (by decide +kernel)⟩
  intro o ho
  have ho' : o ∈ [layer .priceEvent .B (some 101)] := ho
  simp at ho'
  subst ho'
  exact all_of (by decide +kernel)

/-- SchedEntersTheEntry: a count one slot ahead between two entries, 47 entries held, a setting in its ranges and one past them; and
an entry held for the group and count with the same and with another setting, its count ahead and its count come. -/
theorem witness_sched :
    let old := List.replicate 46 (sched1 90 .none)
    let s := (present 100 State.reset).setSchedule (old ++ [sched1 102 .none])
    let e : SchedEntry := { sched1 101 .completed with setting := low }
    let u := fun x => (present 100 State.reset).setSchedule ([sched1 90 .none] ++ x :: [sched1 102 .none])
    let d : SchedEntry := { sched1 100 .completed with setting := low }
    let v := (present 100 State.reset).setSchedule (d :: [sched1 102 .none])
    (PortIdle .A s ∧ readSched [1, 0, 0, 0, 0, 101, 8, 15, 9] = some (1, 101, high)
        ∧ readSched [1, 0, 0, 0, 0, 101, 9, 15, 9] = some (1, 101, { high with rate := 9 }) ∧ s.count < 101
        ∧ s.schedule = old ++ [sched1 102 .none] ∧ (∀ e ∈ old, e.activation ≤ 101)
        ∧ (∀ e ∈ [sched1 102 .none], 101 < e.activation) ∧ (∀ e ∈ old, ¬ (e.group = 1 ∧ e.activation = 101))
        ∧ old.length + [sched1 102 .none].length < 48)
      ∧ (Ranged .A .sched 1 high high false s s ∧ ∃ v, Ranged .A .sched 1 { high with rate := 9 } high true s v)
      ∧ (PortIdle .A (u e) ∧ (u e).schedule = [sched1 90 .none] ++ e :: [sched1 102 .none] ∧ high ≠ e.setting
        ∧ high = (sched1 101 .completed).setting ∧ (u e).count < 101 ∧ e.mark ≠ .none ∧ MovesInv (u e)
        ∧ ∀ x ∈ [sched1 90 .none] ++ [sched1 102 .none], ¬ (x.group = 1 ∧ x.activation = 101))
      ∧ (PortIdle .A v ∧ readSched [1, 0, 0, 0, 0, 100, 8, 15, 9] = some (1, 100, high) ∧ v.schedule = [] ++ d :: [sched1 102 .none]
        ∧ high ≠ d.setting ∧ d.activation ≤ v.count ∧ v.waits.get .A = none ∧ d.mark ≠ .none ∧ MovesInv v
        ∧ ∀ x ∈ [] ++ [sched1 102 .none], ¬ (x.group = 1 ∧ x.activation = 100)) := by
  refine ⟨⟨idle_of ?_, ?_⟩, ⟨ranged_in, ⟨_, ranged_out ?_⟩⟩,
    ⟨idle_of ?_, ?_, ?_, ?_, ?_, ?_, movesInv_of ?_ ?_, ?_⟩,
    ⟨idle_of ?_, ?_, ?_, ?_, ?_, ?_, ?_, movesInv_of ?_ ?_, ?_⟩⟩ <;> decide +kernel

/-- SchedEntersTheEntry: a count within reach, one slot ahead and at the reach's opening, with one place free. -/
theorem witness_sched_in_reach :
    let s := setQueue (others 15) ((active [] none (present 100 State.reset)).setSchedule
      ([{ sched1 90 .none with group := 2 }] ++ [sched1 30108 .none]))
    PortIdle .A s ∧ readSched [1, 0, 0, 0, 0, 101, 8, 15, 9] = some (1, 101, high)
      ∧ readSched [1, 0, 0, 0, 117, 155, 8, 15, 9] = some (1, 30107, high) ∧ Ranged .A .sched 1 high high false s s
      ∧ (s.schedule = [{ sched1 90 .none with group := 2 }] ++ [sched1 30108 .none] ∧ s.count < 101 ∧ s.heldBack = false
        ∧ 30107 ≤ s.count + min s.conf.leadWindow 65535 + announceSlots s.conf.broadcastGrade
        ∧ (∀ x ∈ [{ sched1 90 .none with group := 2 }] ++ [sched1 30108 .none], x.group = 1 → 30107 < x.activation)
        ∧ (s.group 1).holding = .active { setting := low, origin := .port .A } [] ∧ (∀ q ∈ s.disp.queue, isAnnOf 1 q = false)
        ∧ (s.group 1).due = false ∧ (s.group 1).next = none ∧ s.disp.queue.length < 16) := by
  refine ⟨idle_of ?_, ?_, ?_, ranged_in, ?_⟩ <;> decide +kernel

/-- SchedRefusedOrAtOnce: RANGE unmasked; PAST unmasked and masked at this very count; 48 entries held; each of the last three with
a setting in its ranges, and with one past them. -/
theorem witness_sched_refused :
    let clear := fun s => updPort .A (fun c => { c with mask := { CondSet.clear with range := true } }) s
    let none' := fun s => updPort .A (fun c => { c with mask := CondSet.clear }) s
    let s := (present 100 State.reset).setSchedule [sched1 99 .none]
    let full := s.setSchedule (List.replicate 48 (sched1 102 .none))
    (PortIdle .A (none' s) ∧ readSched [1, 0, 0, 0, 0, 101, 9, 15, 9] = some (1, 101, { high with rate := 9 })
        ∧ { high with rate := 9 }.inRange = false ∧ ((none' s).port .A).mask.range = false)
      ∧ (PortIdle .A (clear s) ∧ readSched [1, 0, 0, 0, 0, 100, 8, 15, 9] = some (1, 100, high) ∧ 100 ≤ (clear s).count
        ∧ ((clear s).port .A).mask.past = false ∧ ∀ e ∈ (clear s).schedule, ¬ (e.group = 1 ∧ e.activation = 100))
      ∧ (PortIdle .A full ∧ readSched [1, 0, 0, 0, 0, 101, 8, 15, 9] = some (1, 101, high) ∧ full.count < 101
        ∧ full.schedule.length = 48 ∧ ∀ e ∈ full.schedule, ¬ (e.group = 1 ∧ e.activation = 101))
      ∧ (PortIdle .A s ∧ 100 ≤ s.count ∧ (s.port .A).mask.past = true ∧ isActive (s.group 1).holding = false
        ∧ Owed 1 (after (.sched .A [1, 0, 0, 0, 0, 100, 8, 15, 9]) s))
      ∧ (Ranged .A .sched 1 high high false s s ∧ (∃ u, Ranged .A .sched 1 { high with rate := 9 } high true s u)
        ∧ ∃ u, Ranged .A .sched 1 { high with rate := 9 } high true (clear s) u) := by
  refine ⟨⟨idle_of (by decide +kernel), ?_⟩, ⟨idle_of (by decide +kernel), ?_⟩, ⟨idle_of (by decide +kernel), ?_⟩,
    ⟨idle_of (by decide +kernel), ?_, ?_, ?_, owed_of (by decide +kernel)⟩,
    ranged_in, ⟨_, ranged_out (by decide +kernel)⟩, ⟨_, ranged_out (by decide +kernel)⟩⟩ <;> decide +kernel

/-- UnschWithdrawsTheEntry: no entry; one with the mark NONE, its count ahead and come; a COMPLETED one; one in flight; one not
started, of a group that is owed nothing, that holds another entry behind a fence, and that is owed; and one whose count has come,
of a group that holds another entry. -/
theorem witness_unsch :
    let s := fun m => owing.setSchedule ([sched1 90 .none] ++ sched1 300 m :: [sched1 400 .none])
    let f := setQueue [.ann (entry high (some 300) true 1)] (s .queued)
    let met := active [] (some { setting := low, stamp := 1 }) (present 100 State.reset)
    let one := fun b => (setQueue (.ann (entry high (some 300) false 1) :: b) owing).setSchedule ([] ++ sched1 300 .queued :: [])
    let none' := (setQueue [.ann (entry high (some 300) false 1)] met).setSchedule ([] ++ sched1 300 .queued :: [])
    let goes : Entry → Bool := fun q => match q with
      | .ann x => decide (x.group = 1) && !x.started && decide (x.activation = some 300)
      | _ => false
    let now := (setQueue [.ann (entry high (some 100) false 1), .fence .A, .ann (entry high none false 1)] owing).setSchedule
      ([] ++ sched1 100 .queued :: [])
    PortIdle .A (s .none) ∧ readUnsch [1, 0, 0, 0, 1, 45] = some (1, 301)
      ∧ (∀ e ∈ (s .none).schedule, ¬ (e.group = 1 ∧ e.activation = 301)) ∧ readUnsch [1, 0, 0, 0, 1, 44] = some (1, 300)
      ∧ (s .none).schedule = [sched1 90 .none] ++ sched1 300 .none :: [sched1 400 .none]
      ∧ (∀ x ∈ [sched1 90 .none] ++ [sched1 400 .none], ¬ (x.group = 1 ∧ x.activation = 300)) ∧ (sched1 300 .none).mark = .none
      ∧ (∃ x, Entry.ann x ∈ (setQueue [.ann (entry low none false 1)] (s .none)).disp.queue ∧ x.group = 1)
      ∧ PortIdle .A (s .completed) ∧ (s .completed).schedule = [sched1 90 .none] ++ sched1 300 .completed :: [sched1 400 .none]
      ∧ PortIdle .A f ∧ f.schedule = [sched1 90 .none] ++ sched1 300 .queued :: [sched1 400 .none]
      ∧ heldUnstarted (sched1 300 .queued) f = false ∧ heldInFlight (sched1 300 .queued) f = true
      ∧ Owed 1 (after (.unsch .A [1, 0, 0, 0, 1, 44]) (s .completed))
      ∧ ((∀ q, goes q = true ↔ ∃ x, q = Entry.ann x ∧ x.group = 1 ∧ x.started = false ∧ x.activation = some 300)
        ∧ PortIdle .A none' ∧ (∃ q ∈ none'.disp.queue, goes q = true) ∧ (none'.group 1).due = false
        ∧ ¬ Owed 1 none' ∧ (∀ h, (none'.group h).due = false) ∧ (∀ q ∈ none'.disp.queue, isWork q = false))
      ∧ (∃ q ∈ (one [.fence .A, .ann (entry low none false 1)]).disp.queue, isAnnOf 1 q = true ∧ goes q = false)
      ∧ (∀ q ∈ (one []).disp.queue, isAnnOf 1 q = true → goes q = true)
      ∧ Owed 1 (after (.unsch .A [1, 0, 0, 0, 1, 44]) (one []))
      ∧ (now.schedule = [] ++ sched1 100 .queued :: [] ∧ readUnsch [1, 0, 0, 0, 0, 100] = some (1, 100) ∧ 100 ≤ now.count
        ∧ (∃ q ∈ now.disp.queue, q = .ann (entry high (some 100) false 1)) ∧ (now.group 1).due = false
        ∧ Owed 1 (after (.unsch .A [1, 0, 0, 0, 0, 100]) now))
      ∧ Met 1 (setQueue [.ann (entry low none false 1)] (now.setSchedule [sched1 100 .none])) := by
  refine ⟨idle_of (by decide +kernel), ?_, ?_, ?_, ?_, ?_, ?_, ⟨entry low none false 1, by decide +kernel, rfl⟩, idle_of (by decide +kernel), ?_,
    idle_of (by decide +kernel), ?_, ?_, ?_, owed_of (by decide +kernel),
    ⟨?_, idle_of (by decide +kernel), ?_, ?_, not_owed_of (by decide +kernel), ?_, ?_⟩, ?_, ?_, owed_of (by decide +kernel),
    ⟨?_, ?_, ?_, ?_, ?_, owed_of (by decide +kernel)⟩,
    .inr ⟨entry low none false 1, low, by decide +kernel, by decide +kernel, rfl, rfl, rfl, fun _ h => by cases h⟩⟩
  case refine_11 =>
    intro q
    cases q <;> simp [and_assoc]
  all_goals decide +kernel

/-- UnschWithdrawsTheEntry: a QUEUED pre-announcement in flight and on the line. -/
theorem witness_unsch_in_flight :
    let x := entry high (some 300) true 1
    let s := line (.announcement 1) (sending (setQueue ([orderOf .A] ++ .ann x :: []) (owing.setSchedule
      ([] ++ sched1 300 .queued :: []))))
    PortIdle .A s ∧ readUnsch [1, 0, 0, 0, 1, 44] = some (1, 300) ∧ s.schedule = [] ++ sched1 300 .queued :: []
      ∧ s.disp.queue = [orderOf .A] ++ .ann x :: [] ∧ x.group = 1 ∧ x.started = true ∧ x.activation = some 300
      ∧ (∀ q ∈ [orderOf .A] ++ [], isInFlight 1 q = false) ∧ (∀ q ∈ [orderOf .A] ++ [], isAnnOf 1 q = false)
      ∧ x.origin = some .A ∧ (s.port .A).shedding = false ∧ (s.port .A).notices.length < 15
      ∧ s.disp.sending.map (·.group) = some 1 := by
  refine ⟨idle_of (by decide +kernel), ?_⟩
  decide +kernel

/-- ScheduleActivationSetsTheBase: the pre-announcement of the entry is in flight at its activation, and not started at it. -/
theorem witness_activation_absorbed :
    let s := fun b => setQueue [.ann (entry high (some 100) b 1)] ((active [] (some { setting := low, stamp := 8 })
      (present 100 State.reset)).setSchedule ([] ++ sched1 100 .queued :: []))
    let good := fun b => (s b).schedule = [] ++ sched1 100 .queued :: [] ∧ (sched1 100 .queued).activation ≤ (s b).count
      ∧ ((s b).group 1).holding = .active { setting := low, origin := .port .A } []
      ∧ Entry.ann (entry high (some 100) b 1) ∈ (s b).disp.queue
      ∧ (entry high (some 100) b 1).content = (sched1 100 .queued).setting ∧ 100 ≤ (s b).count
    good true ∧ good false ∧ MovesInv (s true) ∧ MovesInv (s false) := by
  refine ⟨?_, ?_, movesInv_of ?_ ?_, movesInv_of ?_ ?_⟩ <;> beta_reduce <;> decide +kernel

/-- ScheduleActivationSetsTheBase: an activation at this very count, of an INACTIVE group, and of an ACTIVE one with no other event to
act; one whose override expires at this very count, with the setting stated, and with a next stated come to it; one of the base's
setting, with another setting stated, the queue empty and full; and an activation a slot ahead. -/
theorem witness_activation :
    let s := (present 100 State.reset).setSchedule ([] ++ sched1 100 .none :: [sched1 101 .none])
    let st : Stated := { setting := high, stamp := 9 }
    let n : NextStated := { setting := high, stamp := 9, activation := 100 }
    let z := fun o => (active [layer .loadRelief .B (some 100)] o (present 100 State.reset)).setSchedule ([] ++ sched1 100 .completed :: [])
    let u := updGroup 1 (fun r => { r with next := some n }) (z none)
    let quiet := fun w : State => w.schedule = [] ++ sched1 100 .completed :: []
      ∧ (w.group 1).holding = .active { setting := low, origin := .port .A } [layer .loadRelief .B (some 100)]
      ∧ (layer .loadRelief .B (some 100)).expiry = some 100 ∧ 100 ≤ w.count ∧ st.setting = (sched1 100 .completed).setting
      ∧ (w.group 1).due = false ∧ ∀ q ∈ w.disp.queue, isAnnOf 1 q = false
    s.schedule = [] ++ sched1 100 .none :: [sched1 101 .none] ∧ (sched1 100 .none).group = 1
      ∧ (sched1 100 .none).activation ≤ s.count ∧ isActive (s.group 1).holding = false
      ∧ Owed 1 (after (.scheduleActivation 1) s)
      ∧ (quiet (z (some st)) ∧ ((z (some st)).group 1).next = none ∧ ((z (some st)).group 1).stated = some st)
      ∧ (quiet u ∧ (u.group 1).next = some n ∧ n.activation ≤ u.count ∧ st = { setting := n.setting, stamp := n.stamp })
      ∧ [Instr.layerExpiry 1, .applicationOfNextStated 1, .scheduleActivation 1].Perm
          [.scheduleActivation 1, .layerExpiry 1, .applicationOfNextStated 1]
      ∧ (∀ x ∈ [sched1 101 .none], x.group = 1 → s.count < x.activation)
      ∧ (uncovering.schedule = [] ++ sched1 100 .none :: [] ∧ (uncovering.group 1).holding = .active
            { setting := high, origin := .port .A } [{ layer .loadRelief .B (some 100) with setting := low }]
          ∧ (uncovering.group 1).next = none ∧ (uncovering.group 1).stated = some { setting := low, stamp := 8 }
          ∧ low ≠ (sched1 100 .none).setting ∧ (uncovering.group 1).due = false ∧ uncovering.disp.queue = []
          ∧ MovesInv uncovering)
      ∧ ((∀ q ∈ (setQueue (others 16) uncovering).disp.queue, isAnnOf 1 q = false)
          ∧ 16 ≤ (setQueue (others 16) uncovering).disp.queue.length ∧ MovesInv (setQueue (others 16) uncovering)) := by
  refine ⟨?_, ?_, ?_, ?_, owed_of ?_, ?_, ?_, ?_, ?_, ⟨?_, ?_, ?_, ?_, ?_, ?_, ?_, movesInv_of ?_ ?_⟩,
    ?_, ?_, movesInv_of ?_ ?_⟩ <;> decide +kernel

/-- An ACTIVE group with no override. -/
def bare : Holding → Bool
  | .active _ [] => true
  | _ => false

theorem bare_iff (h : Holding) : bare h = true ↔ ∃ b, h = .active b [] := by
  cases h with
  | inactive => simp [bare]
  | active b os => cases os <;> simp [bare]

/-- OpeningEntersThePreAnnouncement: the reach of an entry opens with one place free; the reaches of three open, one of a group with
an earlier entry, with one place free for the two that R32 admits; a line reset just before; and no reach opens. -/
theorem witness_opening :
    let s := setQueue (others 15) ((active [] none (present 100 State.reset)).setSchedule
      ([] ++ sched1 30107 .none :: [sched1 30108 .none]))
    let of := fun (g : GroupNo) (a : Count) => { sched1 a .none with group := g }
    let act := fun g s => updGroup g (fun r => { r with holding := .active { setting := low, origin := .port .A } [] }) s
    let many := (setQueue (others 15) (act 20 (act 21 (act 22 (present 100 State.reset))))).setSchedule
      [of 20 30000, of 20 30107, of 21 30107, of 22 30107]
    let fit : SchedEntry → Bool := fun e => decide (e.activation = 30107) && decide (e.mark = .none)
      && (many.schedule.all fun x => !decide (x.group = e.group) || decide (e.activation ≤ x.activation))
      && bare (many.group e.group).holding && (many.disp.queue.all fun q => !isAnnOf e.group q)
      && !(many.group e.group).due && (many.group e.group).next.isNone
    (s.schedule = [] ++ sched1 30107 .none :: [sched1 30108 .none]
      ∧ (sched1 30107 .none).activation = s.count + min s.conf.leadWindow 65535 + announceSlots s.conf.broadcastGrade
      ∧ s.count < (sched1 30107 .none).activation
      ∧ (∀ x ∈ [] ++ [sched1 30108 .none], x.activation ≠ (sched1 30107 .none).activation)
      ∧ (∀ x ∈ [] ++ [sched1 30108 .none], x.group = (sched1 30107 .none).group → (sched1 30107 .none).activation ≤ x.activation)
      ∧ s.heldBack = false ∧ (after (.lreset .A []) s).heldBack = true
      ∧ (sched1 30107 .none).mark = .none ∧ (s.group 1).holding = .active { setting := low, origin := .port .A } []
      ∧ (∀ q ∈ s.disp.queue, isAnnOf 1 q = false) ∧ (s.group 1).due = false ∧ (s.group 1).next = none
      ∧ s.disp.queue.length < 16
      ∧ (∀ x ∈ ((present 100 State.reset).setSchedule [sched1 30108 .none]).schedule, x.activation
          ≠ s.count + min s.conf.leadWindow 65535 + announceSlots s.conf.broadcastGrade))
      ∧ ((∀ e, fit e = true ↔ e.activation = many.count + min many.conf.leadWindow 65535 + announceSlots many.conf.broadcastGrade
          ∧ many.count < e.activation ∧ e.mark = .none ∧ (∀ x ∈ many.schedule, x.group = e.group → e.activation ≤ x.activation)
          ∧ (∃ b, (many.group e.group).holding = .active b []) ∧ (∀ q ∈ many.disp.queue, isAnnOf e.group q = false)
          ∧ (many.group e.group).due = false ∧ (many.group e.group).next = none)
        ∧ MovesInv many ∧ ScheduleInv many ∧ many.heldBack = false
        ∧ many.schedule.filter fit = [of 21 30107, of 22 30107] ∧ 16 - many.disp.queue.length = 1) := by
  refine ⟨by decide +kernel, ?_, movesInv_of ?_ ?_, ⟨?_, ?_⟩, ?_⟩
  · intro e
    show _ ↔ e.activation = 30107 ∧ 100 < e.activation ∧ _
    simp only [Bool.and_eq_true, decide_eq_true_eq, List.all_eq_true, Bool.or_eq_true, Bool.not_eq_true', decide_eq_false_iff_not,
      Option.isNone_iff_eq_none]
    rw [bare_iff]
    constructor
    · rintro ⟨⟨⟨⟨⟨⟨a, m⟩, f⟩, b⟩, q⟩, d⟩, n⟩
      exact ⟨a, by rw [a]; decide, m, fun x hx hg => (f x hx).resolve_left (fun hne => hne hg), b, q, d, n⟩
    · rintro ⟨a, _, m, f, b, q, d, n⟩
      exact ⟨⟨⟨⟨⟨⟨a, m⟩, fun x hx => (em (x.group = e.group)).elim (fun hg => Or.inr (f x hx hg)) Or.inl⟩, b⟩, q⟩, d⟩, n⟩
  all_goals decide +kernel

/-- OrderJoinsQueueOrTable: 11 orders and 4 announcements; 8 exchanges and no fence; an empty queue and no exchange; 12 orders; 16
entries; and after a departure 11 orders and 4 announcements with a mark set, and 12 orders, no group due; an order behind a fence
with 8 exchanges marked; 4 announcements with an exchange free; and 3 with an exchange free, also with the counter's value held. -/
theorem witness_order :
    let s := setQueue (List.replicate 11 (orderOf .B) ++ others 4) State.reset
    let busy := State.reset.setExch { State.reset.exch with table := List.replicate 8 (exch5 .test .waiting) }
    let twelve := setQueue (List.replicate 12 (orderOf .B)) State.reset
    let sixteen := setQueue (others 16) State.reset
    let fenced := setQueue [.fence .B]
      (State.reset.setExch { State.reset.exch with table := List.replicate 8 { exch5 .test .waiting with fenceMark := true } })
    let free := fun n => setQueue (others n) (withExch (exch5 .test .waiting) State.reset)
    let held := (free 3).setExch { (free 3).exch with tagCounter := 5 }
    readOrder [0, 0, 7, 1, 1, 1, 9, 0] = some { unit := 7, kind := .assign 1, reference := 9, repeats := none }
      ∧ PortIdle .A s ∧ (s.disp.queue.countP isWork < 12 ∧ s.disp.queue.length < 16)
      ∧ PortIdle .A busy ∧ 8 ≤ busy.exch.table.length ∧ (∀ e ∈ busy.disp.queue, isFence e = false)
      ∧ PortIdle .A State.reset ∧ State.reset.disp.queue = [] ∧ State.reset.exch.table.length < 8
      ∧ (∀ x ∈ State.reset.exch.table, x.tag ≠ State.reset.exch.tagCounter)
      ∧ PortIdle .A twelve ∧ ¬ (twelve.disp.queue.countP isWork < 12 ∧ twelve.disp.queue.length < 16)
      ∧ ((∀ g, (s.group g).due = false) ∧ (s.setDisp { s.disp with spaceMarks := { a := true, b := false } }).disp.spaceMarks.get .A
          = true ∧ s.disp.spaceMarks.get .B = false ∧ ∀ g, (twelve.group g).due = false)
      ∧ PortIdle .A sixteen ∧ ¬ (sixteen.disp.queue.countP isWork < 12 ∧ sixteen.disp.queue.length < 16)
      ∧ (PortIdle .A fenced ∧ MovesInv fenced ∧ (∃ e ∈ fenced.disp.queue, isFence e = true) ∧ fenced.disp.queue.length = 1)
      ∧ (PortIdle .A (free 4) ∧ MovesInv (free 4) ∧ (free 4).exch.table.length < 8 ∧ 4 ≤ (free 4).disp.queue.length
        ∧ (free 4).disp.queue.countP isWork < 12)
      ∧ (PortIdle .A (free 3) ∧ MovesInv (free 3) ∧ (∀ e ∈ (free 3).disp.queue, isFence e = false)
        ∧ (free 3).disp.queue.length < 4 ∧ (free 3).disp.queue ≠ [] ∧ (free 3).exch.table.length < 8
        ∧ ∀ g, ((free 3).group g).due = false)
      ∧ (PortIdle .A held ∧ MovesInv held ∧ held.disp.queue = others 3 ∧ held.exch.table.map (·.tag) = [held.exch.tagCounter]) := by
  refine ⟨?_, idle_of (by decide +kernel), ?_, idle_of (by decide +kernel), ?_, ?_, idle_of (by decide +kernel), ?_, ?_, ?_,
    idle_of (by decide +kernel), ?_, ?_, idle_of (by decide +kernel), ?_,
    ⟨idle_of ?_, movesInv_of ?_ ?_, ?_⟩, ⟨idle_of ?_, movesInv_of ?_ ?_, ?_⟩, ⟨idle_of ?_, movesInv_of ?_ ?_, ?_⟩,
    ⟨idle_of ?_, movesInv_of ?_ ?_, ?_⟩⟩ <;> decide +kernel

/-- FenceMarksTheLiveExchanges: behind a fence of its own port; into an empty queue with and without an exchange; without room; and
behind an announcement. -/
theorem witness_fence :
    let own := setQueue [orderOf .B, .fence .A] State.reset
    let live := withExch (exch5 .test .waiting) State.reset
    let full := setQueue (List.replicate 12 (orderOf .B)) State.reset
    let some' := setQueue (others 1) live
    (PortIdle .A own ∧ own.disp.queue.getLast? = some (.fence .A))
      ∧ (PortIdle .A live ∧ live.disp.queue.getLast? ≠ some (.fence .A)
        ∧ (live.disp.queue.countP isWork < 12 ∧ live.disp.queue.length < 16) ∧ exch5 .test .waiting ∈ live.exch.table
        ∧ live.disp.queue = [] ∧ live.exch.table ≠ [])
      ∧ (PortIdle .A State.reset ∧ State.reset.disp.queue = [] ∧ State.reset.exch.table = [])
      ∧ (PortIdle .A full ∧ full.disp.queue.getLast? ≠ some (.fence .A)
        ∧ ¬ (full.disp.queue.countP isWork < 12 ∧ full.disp.queue.length < 16))
      ∧ (PortIdle .A some' ∧ MovesInv some' ∧ some'.disp.queue.getLast? ≠ some (.fence .A)
        ∧ (some'.disp.queue.countP isWork < 12 ∧ some'.disp.queue.length < 16) ∧ some'.disp.queue ≠ []) := by
  refine ⟨⟨idle_of (by decide +kernel), ?_⟩, ⟨idle_of (by decide +kernel), ?_⟩, ⟨idle_of (by decide +kernel), ?_⟩,
    ⟨idle_of (by decide +kernel), ?_⟩,
    ⟨idle_of (by decide +kernel), movesInv_of (by decide +kernel) (by decide +kernel), ?_⟩⟩ <;> decide +kernel

/-- CanclEndsTheNamedOrders: no order named; an order in the queue and an exchange; an order of the other port beside them; 12 orders
with the other port's QUEUE SPACE mark set; and a fence that the cancelled exchange held, with an order behind it. -/
theorem witness_cancl :
    let s := setQueue [orderOf .A, orderOf .B] (withExch (exch5 .test .waiting) State.reset)
    let full := (setQueue (List.replicate 12 (orderOf .A)) State.reset)
    let m := full.setDisp { full.disp with spaceMarks := { a := false, b := true } }
    let o : OrderEntry := { unit := 8, kind := .test, port := .B, reference := 3 }
    let x := { exch5 .test .waiting with fenceMark := true }
    let f := setQueue [.fence .B, .order o] (withExch x State.reset)
    PortIdle .A s ∧ (∀ e ∈ s.disp.queue, namesOrder .A 4 e = false) ∧ (∀ x ∈ s.exch.table, ¬ (x.port = .A ∧ x.reference = 4))
      ∧ (∃ e ∈ s.disp.queue, namesOrder .A 3 e = true) ∧ (∃ x ∈ s.exch.table, x.port = .A ∧ x.reference = 3)
      ∧ (s.exch.table.map (·.tag)).Nodup ∧ (∃ x ∈ s.exch.table, ¬ (x.port = .B ∧ x.reference = 3))
      ∧ (((after (.cancl .A [3]) s).port .A).shedding = false ∧ orderOf .A ∈ s.disp.queue
        ∧ ∃ x ∈ s.exch.table, x.port = .A ∧ x.reference = 3 ∧ x.state ≠ .sending)
      ∧ (PortIdle .A m ∧ (∃ e ∈ m.disp.queue, namesOrder .A 3 e = true) ∧ m.disp.queue.length ≤ 16
        ∧ m.disp.queue.countP isWork ≤ 12 ∧ (∀ g, (m.group g).due = false) ∧ m.disp.spaceMarks.get .B = true
        ∧ ((after (.cancl .A [3]) m).port .B).shedding = false)
      ∧ (PortIdle .A f ∧ f.disp.queue = [.fence .B, .order o] ∧ f.exch.table = [x] ∧ x.fenceMark = true ∧ x.port = .A
        ∧ x.reference = 3 ∧ x.state ≠ .sending ∧ namesOrder .A 3 (.order o) = false ∧ ∀ g, (f.group g).due = false) := by
  refine ⟨idle_of (by decide +kernel), ?_, ?_, ?_, ?_, ?_, ?_, ?_, ⟨idle_of (by decide +kernel), ?_⟩,
    ⟨idle_of (by decide +kernel), ?_⟩⟩ <;> decide +kernel

/-- RefshRepeatsTheStatedSetting: INACTIVE; a stated setting with 15 and with 16 places held, next stated absent, one slot ahead, and
come to the effective setting at this very count; an entry held; due; none stated; and next stated come to another setting. -/
theorem witness_refsh :
    let st : Stated := { setting := low, stamp := 41 }
    let s := fun n => setQueue (others n) (active [] (some st) (present 100 State.reset))
    let n : Setting → Count → NextStated := fun x v => { setting := x, stamp := 9, activation := v }
    let u := fun x v k => updGroup 1 (fun r => { r with next := some (n x v) }) (s k)
    let held := setQueue [.ann (entry low none false 1)] (active [] (some st) State.reset)
    readGroupOnly [1] = some 1 ∧ PortIdle .A State.reset ∧ isActive (State.reset.group 1).holding = false
      ∧ (PortIdle .A (s 15) ∧ isActive ((s 15).group 1).holding = true ∧ ((s 15).group 1).next = none
        ∧ ((s 15).group 1).stated = some st ∧ ((s 15).group 1).due = false ∧ (∀ e ∈ (s 15).disp.queue, isAnnOf 1 e = false)
        ∧ (s 15).disp.queue.length < 16)
      ∧ (PortIdle .A (s 16) ∧ ((s 16).group 1).stated = some st ∧ (∀ e ∈ (s 16).disp.queue, isAnnOf 1 e = false)
        ∧ 16 ≤ (s 16).disp.queue.length)
      ∧ (PortIdle .A (u low 101 0) ∧ ((u low 101 0).group 1).next = some (n low 101) ∧ (u low 101 0).count < (n low 101).activation)
      ∧ (PortIdle .A (u low 100 15) ∧ ((u low 100 15).group 1).next = some (n low 100)
        ∧ (n low 100).activation ≤ (u low 100 15).count
        ∧ effectiveOf ((u low 100 15).group 1).holding = some (n low 100).setting)
      ∧ (PortIdle .A held ∧ ((held.group 1).next = none) ∧ (∃ e ∈ held.disp.queue, isAnnOf 1 e = true)
        ∧ (held.group 1).stated ≠ none)
      ∧ (PortIdle .A (setDue 1 true owing) ∧ ((setDue 1 true owing).group 1).due = true)
      ∧ (PortIdle .A owing ∧ (owing.group 1).next = none ∧ (owing.group 1).stated = none
        ∧ Owed 1 (after (.refsh .A [1]) owing))
      ∧ (PortIdle .A (u high 100 0) ∧ ((u high 100 0).group 1).next = some (n high 100)
        ∧ Owed 1 (after (.refsh .A [1]) (u high 100 0))) := by
  refine ⟨by decide +kernel, idle_of (by decide +kernel), by decide +kernel, ⟨idle_of (by decide +kernel), ?_⟩,
    ⟨idle_of (by decide +kernel), ?_⟩, ⟨idle_of (by decide +kernel), ?_⟩, ⟨idle_of (by decide +kernel), ?_⟩,
    ⟨idle_of (by decide +kernel), ?_⟩, ⟨idle_of (by decide +kernel), ?_⟩,
    ⟨idle_of (by decide +kernel), ?_, ?_, owed_of (by decide +kernel)⟩,
    ⟨idle_of (by decide +kernel), ?_, owed_of (by decide +kernel)⟩⟩ <;> decide +kernel

/-- A cache with every place taken, by the units 101 to 164, pinned but where the test holds. -/
def fullCache (unpinned : Fin 64 → Bool) (last : Option (Fin 64)) : RouteCache :=
  { places := Vector.ofFn fun i => some (route (101 + i.val) (!unpinned i)), lastUsed := last }

theorem fullCache_get (u : Fin 64 → Bool) (l : Option (Fin 64)) (i : Fin 64) :
    (fullCache u l).places.get i = some (route (101 + i.val) (!u i)) := by
  simp [fullCache, Vector.get_eq_getElem]

theorem routeInv_full (u : Fin 64 → Bool) (l : Option (Fin 64)) : RouteInv (fullCache u l) := by
  intro i j r q hi hj h
  rw [fullCache_get] at hi hj
  cases hi
  cases hj
  apply Fin.ext
  simpa [route] using h

theorem unrouted_full (u : Fin 64 → Bool) (l : Option (Fin 64)) : Unrouted 7 (fullCache u l) := by
  intro j r h
  rw [fullCache_get] at h
  cases h
  show 101 + j.val ≠ 7
  omega

/-- ExchangeTimersAct, deadlines: the deadline at this very count, in LOST and in PRESENT, with three retries, with no end to them, and with
none, its unit's route written just before the latest attempt and at its start, and none held; one slot before it; and outside WAITING. -/
theorem witness_window :
    let x := exch5 .test .waiting
    let lost := (State.reset.setTime { State.reset.time with count := 40, state := .lost })
    let s := fun r => withExch { x with retries := r } (present 40 State.reset)
    ((withExch x lost).exch.table = [] ++ x :: [] ∧ x.state = .waiting ∧ x.deadline = some 40
        ∧ 40 ≤ (withExch x lost).count ∧ (withExch x lost).time.state ≠ .present)
      ∧ ((s (.limited 3)).time.state = .present ∧ 40 ≤ (s (.limited 3)).count ∧ x.retries = .limited (2 + 1)
        ∧ ({ x with retries := .unlimited } : Exchange).retries = .unlimited)
      ∧ (({ x with retries := .limited 0 } : Exchange).retries = .limited 0 ∧ x.attempt.isSome = true
        ∧ x.tag ∉ (s (.limited 0)).exch.ready)
      ∧ (let r := fun w => { route 7 false with written := w }
        RouteInv (withRoute (r 9) (s (.limited 0))).routes
          ∧ (withRoute (r 9) (s (.limited 0))).routes.places.get 3 = some (r 9) ∧ (r 9).unit = x.unit ∧ (r 9).pinned = false
          ∧ x.attempt.map (·.start) = some 10 ∧ (r 9).written < 10 ∧ 10 ≤ (r 10).written
          ∧ Unrouted x.unit (fullCache (fun _ => true) none))
      ∧ (∀ y ∈ (withExch x (present 39 State.reset)).exch.table, ∀ d, y.deadline = some d → (present 39 State.reset).count < d)
      ∧ (∀ y ∈ (withExch (exch5 .test .ready) (present 40 State.reset)).exch.table, y.state ≠ .waiting) := by
  refine ⟨by decide +kernel, by decide +kernel, by decide +kernel, ⟨routeInv_of, by decide +kernel, rfl, rfl, rfl, by decide,
    by decide, unrouted_full _ _⟩, ?_, by decide +kernel⟩
  intro y hy
  have hy' : y ∈ [exch5 .test .waiting] := hy
  simp at hy'
  subst hy'
  exact all_of (by decide +kernel)

/-- ExchangeTimersAct, holds: the hold-until at this very count; one slot before it; and outside HELD. -/
theorem witness_hold :
    let x := exch5 .test .held
    ((withExch x (present 40 State.reset)).exch.table = [] ++ x :: [] ∧ x.state = .held ∧ x.holdUntil = some 40
        ∧ 40 ≤ (withExch x (present 40 State.reset)).count)
      ∧ (∀ y ∈ (withExch x (present 39 State.reset)).exch.table, ∀ d, y.holdUntil = some d → (present 39 State.reset).count < d)
      ∧ (∀ y ∈ (withExch (exch5 .test .ready) (present 40 State.reset)).exch.table, y.state ≠ .held) := by
  refine ⟨by decide +kernel, ?_, by decide +kernel⟩
  intro y hy
  have hy' : y ∈ [exch5 .test .held] := hy
  simp at hy'
  subst hy'
  exact all_of (by decide +kernel)

/-- An answer to tag 5 from a unit. -/
def answerFrom (u : UnitNo) (o : Nat) (r : Option Reply) : Answer :=
  { source := u, tag := 5, outcome := o, reply := r, grade := .g2, count := 100 }

/-- AnswersActOnTheirExchange: a tag that no exchange holds; another unit, SENDING and the wrong form; REJECT, ACCEPT and the last DEFER; a DEFER with one left;
and each line of the comparison. -/
theorem witness_answers :
    let x := exch5 .test .waiting
    let q := exch5 (.query 1) .waiting
    let rep : Nat → Reply := fun g => { group := g, setting := low, stamp := 41 }
    let none' := withExch q (active [] none State.reset)
    let same := withExch q (active [] (some { setting := low, stamp := 41 }) State.reset)
    let behind := withExch q (active [] (some { setting := low, stamp := 42 }) State.reset)
    (∀ y ∈ (withExch x State.reset).exch.table, y.tag ≠ ({ answerFrom 7 1 none with tag := 6 } : Answer).tag)
      ∧ ((withExch x State.reset).exch.table = [] ++ x :: [] ∧ (answerFrom 8 1 none).tag = x.tag ∧ (answerFrom 8 1 none).source ≠ x.unit
        ∧ (exch5 .test .sending).state = .sending
        ∧ (answerFrom 7 1 (some (rep 1))).reply ≠ none ∧ ∀ g, x.kind ≠ .query g)
      ∧ ((answerFrom 7 2 none).source = x.unit ∧ x.state ≠ .sending ∧ (answerFrom 7 2 none).outcome = 2
        ∧ (answerFrom 7 1 none).outcome = 1 ∧ (answerFrom 7 1 none).reply = none
        ∧ (answerFrom 7 3 none).outcome = 3 ∧ ({ x with defers := 0 } : Exchange).defers = 0)
      ∧ x.defers = 3 + 1
      ∧ (none'.exch.table = [] ++ q :: [] ∧ q.kind = .query 1 ∧ q.state ≠ .sending
        ∧ (answerFrom 7 1 (some (rep 1))).source = q.unit ∧ (answerFrom 7 1 (some (rep 1))).reply = some (rep 1)
        ∧ (rep 255).group ≠ (1 : GroupNo).val
        ∧ ((rep 1).group = (1 : GroupNo).val ∧ (none'.group 1).stated = none)
        ∧ (isActive (same.group 1).holding = true
          ∧ (same.group 1).stated = some { setting := (rep 1).setting, stamp := (rep 1).stamp })
        ∧ (isActive (behind.group 1).holding = true ∧ (behind.group 1).stated = some { setting := low, stamp := 42 }
          ∧ ({ setting := low, stamp := 42 } : Stated) ≠ { setting := (rep 1).setting, stamp := (rep 1).stamp })) := by
  refine ⟨?_, ⟨?_, ?_, ?_, ?_, ?_, fun g h => by cases h⟩, ?_, ?_, ?_⟩ <;> decide +kernel

/-- FramesRoundTrip: the greatest numbers, three relays, the greatest countdown. -/
theorem witness_frames : (65535 ≤ 65535 ∧ high.rate < 256 ∧ high.level < 256)
    ∧ 16777215 < 2 ^ 24 ∧ 3 ≤ 3 ∧ [16777214, 1, 2].length ≤ 3 ∧ ∀ u ∈ [16777214, 1, 2], u < 2 ^ 24 := by decide

/-- A receipt for unit 7. -/
def receipt (n : Byte) (o : Bool) : Receipt := { unit := 7, number := n, path := [20], grade := .g2, onLine := o }

/-- ReceiptIsGrantedFirst: each ground for no grant, with an announcement not eligible and one behind a fence; a backoff at its end,
and a slot before it; and a receipt to send before a READY exchange,
to a unit with a route and to one without. -/
theorem witness_receipt :
    let s := present 100 State.reset
    let r := (withExch (exch5 .test .ready) s).setRx { s.rx with receipts := [] ++ receipt 4 false :: [receipt 5 false] }
    let b := fun n => r.setTx { state := .backoff, frame := none, backoffEnd := some n }
    let q := setQueue [.ann { entry low none false 1 with group := 2, entryCount := 51 }, .fence .A, .ann (entry low none false 1)] s
    (State.reset.tx.state ≠ .backoff ∧ State.reset.arb.claimOpen = false)
      ∧ (State.reset.time.state ≠ .present ∧ State.reset.conf.station = 0 ∧ State.reset.tx.state ≠ .idle
        ∧ State.reset.arb.quiet = false ∧ carrierHeard (after (.preamble .L1 .g1) s) = true)
      ∧ ((∀ q ∈ s.rx.receipts, q.onLine = true) ∧ s.exch.ready = [] ∧ s.disp.queue = [] ∧ s.tx.state ≠ .backoff)
      ∧ (RouteInv (withRoute (route 7 true) r).routes ∧ canClaim (withRoute (route 7 true) r) = true
        ∧ (withRoute (route 7 true) r).routes.places.get 3 = some (route 7 true) ∧ Unrouted 7 (fullCache (fun _ => true) none))
      ∧ (r.arb.claimOpen = true ∧ r.tx.state = .idle ∧ canClaim r = true
        ∧ r.rx.receipts = [] ++ receipt 4 false :: [receipt 5 false] ∧ (receipt 4 false).onLine = false
        ∧ ∀ q ∈ [] ++ [receipt 5 false], ¬ (q.unit = 7 ∧ q.number = 4))
      ∧ ((b 100).tx.state = .backoff ∧ (b 100).tx.backoffEnd = some 100 ∧ 100 ≤ (b 100).count ∧ (b 100).time.state = .present
        ∧ (b 101).tx.state = .backoff ∧ (b 101).tx.backoffEnd = some 101 ∧ (b 101).count < 101)
      ∧ ((∀ x ∈ q.rx.receipts, x.onLine = true) ∧ q.exch.ready = [] ∧ canClaim q = true ∧ q.arb.claimOpen = true
        ∧ eligible q (entry low none false 1) = true
        ∧ ∀ ahead a behind, q.disp.queue = ahead ++ .ann a :: behind → ahead.length < 4 → (∀ e ∈ ahead, isFence e = false) →
          eligible q a = false) := by
  refine ⟨?_, ?_, ?_, ⟨routeInv_of, ?_, ?_, unrouted_full _ _⟩, ?_, ?_, ?_, ?_, ?_, ?_, ?_, none_eligible_of ?_⟩ <;> decide +kernel

/-- ExchangeIsGrantedNext: with a route at grade 1, and with none. -/
theorem witness_exchange :
    let x := exch5 .test .ready
    let s := withExch x (present 100 State.reset)
    s.arb.claimOpen = true ∧ s.tx.state = .idle ∧ canClaim s = true ∧ (∀ q ∈ s.rx.receipts, q.onLine = true)
      ∧ s.exch.ready = x.tag :: [] ∧ s.exch.table = [] ++ x :: [] ∧ routeOf s.routes x.unit = none
      ∧ routeOf (withRoute (route 7 true) s).routes x.unit = some (route 7 true)
      ∧ canClaim (withRoute (route 7 true) s) = true ∧ RouteInv (withRoute (route 7 true) s).routes
      ∧ (withRoute (route 7 true) s).routes.places.get 3 = some (route 7 true)
      ∧ Unrouted x.unit (fullCache (fun _ => true) none) := by
  refine ⟨?_, ?_, ?_, ?_, ?_, ?_, ?_, ?_, ?_, routeInv_of, ?_, unrouted_full _ _⟩ <;> decide +kernel

/-- AnnouncementIsGrantedLast: the fourth entry of the window, eligible at this very count, new and with its stamp, with the
farthest activation that a countdown reaches; next stated absent, ahead, and at this very count. -/
theorem witness_announcement :
    let wait := fun g : GroupNo => { entry low none false 1 with group := g, entryCount := 51 }
    let ahead := [orderOf .A, .ann (wait 2), .ann (wait 3)]
    let a := { entry low none false 1 with entryCount := 50 }
    let b := { entry low (some (100 + 7 + 65535)) true 1 with done := 1, lastEnd := some 80 }
    let s := fun x => setQueue (ahead ++ .ann x :: [orderOf .B]) (present 100 State.reset)
    let good := fun x => (s x).arb.claimOpen = true ∧ (s x).tx.state = .idle ∧ canClaim (s x) = true
      ∧ (∀ q ∈ (s x).rx.receipts, q.onLine = true) ∧ (s x).exch.ready = []
      ∧ (s x).disp.queue = ahead ++ .ann x :: [orderOf .B] ∧ eligible (s x) x = true
      ∧ eligible (s x) (wait 2) = false ∧ eligible (s x) (wait 3) = false
    let n := fun v : Count => ({ setting := high, stamp := 9, activation := v } : NextStated)
    let u := fun v => updGroup 1 (fun r => { r with next := some (n v) }) (s a)
    (ahead.length < 4 ∧ (∀ e ∈ ahead, isFence e = false) ∧ good a ∧ a.stamp = none ∧ good b ∧ b.stamp = some 1)
      ∧ ((s a).group a.group).next = none
      ∧ (((u 101).group a.group).next = some (n 101) ∧ (u 101).count < (n 101).activation ∧ (u 101).disp = (s a).disp
        ∧ (u 101).count = (s a).count ∧ (u 101).conf = (s a).conf)
      ∧ (((u 100).group a.group).next = some (n 100) ∧ (n 100).activation ≤ (u 100).count) := by
  decide +kernel

/-- FrameEndsWhole: before its end count and in LOST; at its end count with each holder. -/
theorem witness_whole_end :
    let s := present 100 State.reset
    let early := line (.exchange 5) (present 99 State.reset)
    let x := exch5 .test .sending
    let r := (line (.receipt 7 4) s).setRx { s.rx with receipts := [] ++ receipt 4 true :: [receipt 5 false] }
    let e := line (.exchange 5) (withExch x s)
    let c := line (.exchange 5) (withExch { x with cancelPending := true } s)
    let a := line (.announcement 1) (sending (setQueue ([orderOf .A] ++ .ann (entry low none true 1) :: [orderOf .B]) s))
    (early.tx.state = .sending ∧ early.tx.frame.map (·.endCount) = some 100 ∧ early.count < 100)
      ∧ (r.tx.state = .sending ∧ r.tx.frame.map (·.endCount) = some 100 ∧ 100 ≤ r.count ∧ r.time.state = .present
        ∧ r.arb.holder = .receipt 7 4 ∧ r.rx.receipts = [] ++ receipt 4 true :: [receipt 5 false])
      ∧ (e.arb.holder = .exchange x.tag ∧ e.exch.table = [] ++ x :: [] ∧ x.cancelPending = false ∧ x.attempt.isSome = true)
      ∧ (c.arb.holder = .exchange x.tag ∧ c.exch.table = [] ++ { x with cancelPending := true } :: []
        ∧ ∀ y ∈ c.disp.queue, isWork y = false)
      ∧ (a.arb.holder = .announcement 1 ∧ a.disp.sending.map (·.group) = some 1
        ∧ a.disp.queue = [orderOf .A] ++ .ann (entry low none true 1) :: [orderOf .B]
        ∧ (∀ y ∈ [orderOf .A], isInFlight 1 y = false) ∧ (entry low none true 1).started = true
        ∧ (entry low none true 1).repeats ≠ 0) := by decide +kernel

/-- CompletedAnnouncementIsReported: an immediate announcement; a timed one that ended at its activation; a timed one that ended
before it, pre-announced by a QUEUED schedule entry; and one that ended at its activation, whose schedule entry is still to act, with
next stated absent and with one whose count has come; and one that leaves an override on top whose expiry is still to act. -/
theorem witness_completed :
    let st : Stated := { setting := low, stamp := 9 }
    let s := fun x => line (.announcement 1) (sending (setQueue ([orderOf .A] ++ .ann x :: [orderOf .B])
      ((active [] (some st) (present 100 State.reset)).setSchedule [sched1 101 .queued])))
    let good := fun x => (s x).tx.state = .sending ∧ (s x).tx.frame.map (·.endCount) = some 100 ∧ 100 ≤ (s x).count
      ∧ (s x).time.state = .present ∧ (s x).arb.holder = .announcement x.group ∧ (s x).disp.sending.map (·.group) = some x.group
      ∧ (s x).disp.queue = [orderOf .A] ++ .ann x :: [orderOf .B] ∧ (∀ e ∈ [orderOf .A] ++ [orderOf .B], isAnnOf x.group e = false)
      ∧ x.started = true ∧ x.repeats = 0 ∧ x.stamp = some 1 ∧ ((s x).group x.group).next = none ∧ ((s x).group x.group).due = false
    let u := (s (entry high (some 100) true 0)).setSchedule ([] ++ sched1 100 .queued :: [])
    let n : NextStated := { setting := low, stamp := 8, activation := 100 }
    let v := updGroup 1 (fun r => { r with next := some n }) u
    let z := withHolding 1 (.active { setting := low, origin := .port .A } [layer .loadRelief .B (some 100)])
      (s (entry low (some 100) true 0))
    (good (entry low none true 0) ∧ effectiveOf ((s (entry low none true 0)).group 1).holding = some (entry low none true 0).content
        ∧ (entry low none true 0).origin = some .A)
      ∧ (good (entry low (some 100) true 0) ∧ (s (entry low (some 100) true 0)).disp.sending.map (·.endCount) = some 100)
      ∧ (good (entry high (some 100) true 0)
        ∧ (u.group 1).holding = .active { setting := low, origin := .port .A } []
        ∧ u.schedule = [] ++ sched1 100 .queued :: [] ∧ (sched1 100 .queued).activation ≤ u.count
        ∧ (sched1 100 .queued).setting = (entry high (some 100) true 0).content)
      ∧ (v.tx = u.tx ∧ v.count = u.count ∧ v.arb = u.arb ∧ v.disp = u.disp ∧ v.schedule = u.schedule
        ∧ (v.group 1).holding = (u.group 1).holding ∧ (v.group 1).due = false
        ∧ (v.group 1).next = some n ∧ n.activation ≤ v.count)
      ∧ (Owed 1 (after .frameWholeEnd u) ∧ z.disp = (s (entry low (some 100) true 0)).disp ∧ Owed 1 (after .frameWholeEnd z))
      ∧ (good (entry high (some 101) true 0) ∧ (s (entry high (some 101) true 0)).count < 101
        ∧ effectiveOf ((s (entry high (some 101) true 0)).group 1).holding = some st.setting
        ∧ ((s (entry high (some 101) true 0)).group 1).stated = some st
        ∧ sched1 101 .queued ∈ (s (entry high (some 101) true 0)).schedule) := by
  refine ⟨⟨?_, ?_, ?_⟩, ⟨?_, ?_⟩, ⟨?_, ?_, ?_, ?_, ?_⟩, ?_, ⟨owed_of ?_, ?_, owed_of ?_⟩, ⟨?_, ?_, ?_, ?_, ?_⟩⟩ <;>
    beta_reduce <;> decide +kernel

/-- CompletedAnnouncementIsReported: an immediate announcement with next stated one slot ahead, and at this very count; one that
ended at its activation with a next stated ahead that a COMPLETED mark stands for; one that ended before its activation, ahead and
come, with a next stated come; and one of the base's setting, the group's earliest entry within its reach with a place free. -/
theorem witness_completed_next :
    let n : Count → NextStated := fun v => { setting := high, stamp := 8, activation := v }
    let s := fun (c : Count) (x : Ann) (m : Option NextStated) (es : List SchedEntry) =>
      line (.announcement 1) (sending (setQueue ([orderOf .A] ++ .ann x :: others 14)
        ((updGroup 1 (fun r => { r with next := m }) (active [] (some { setting := low, stamp := 9 }) (present c
          State.reset))).setSchedule es)))
    let good := fun c x m es => (s c x m es).tx.frame.map (·.endCount) = some 100 ∧ (s c x m es).tx.state = .sending
      ∧ 100 ≤ (s c x m es).count ∧ (s c x m es).time.state = .present ∧ (s c x m es).arb.holder = .announcement x.group
      ∧ (s c x m es).disp.sending.map (fun t => (t.group, t.endCount)) = some (x.group, 100)
      ∧ (s c x m es).disp.queue = [orderOf .A] ++ .ann x :: others 14
      ∧ (∀ e ∈ [orderOf .A] ++ others 14, isAnnOf x.group e = false) ∧ x.started = true ∧ x.repeats = 0 ∧ x.stamp = some 1
      ∧ ((s c x m es).group x.group).due = false ∧ ((s c x m es).group x.group).next = m
    (good 100 (entry low none true 0) (some (n 101)) [] ∧ 100 < (n 101).activation)
      ∧ (good 100 (entry low none true 0) (some (n 100)) [] ∧ (n 100).activation ≤ 100)
      ∧ good 100 (entry high (some 100) true 0) (some (n 101)) [sched1 101 .completed]
      ∧ (good 100 (entry high (some 101) true 0) (some (n 100)) [sched1 101 .queued] ∧ 100 < 101)
      ∧ good 101 (entry high (some 101) true 0) (some (n 100)) [sched1 101 .queued]
      ∧ (good 100 (entry low none true 0) none [sched1 101 .none, sched1 102 .none]
        ∧ (let u := s 100 (entry low none true 0) none [sched1 101 .none, sched1 102 .none];
          (u.group 1).holding = .active { setting := low, origin := .port .A } [] ∧ low = (entry low none true 0).content
            ∧ (∀ y ∈ u.schedule, y.group = 1 → y ≠ sched1 101 .none → 101 < y.activation) ∧ u.count < 101 ∧ u.heldBack = false
            ∧ 101 ≤ u.count + min u.conf.leadWindow 65535 + announceSlots u.conf.broadcastGrade))
      ∧ ([orderOf .A] ++ others 14).length < 16 := by
  refine ⟨⟨?_, ?_⟩, ⟨?_, ?_⟩, ?_, ⟨?_, ?_⟩, ?_, ⟨?_, ?_⟩, ?_⟩ <;> beta_reduce <;> decide +kernel

/-- A part whose exchange is on the line from count 94. -/
def driving (n : Count) : State := line (.exchange 5) (withExch (exch5 .test .sending) (present n State.reset))

theorem lineInv_driving : LineInv (driving 95) := by
  refine ⟨?_, ?_, ?_, fun t h => (by cases h), fun g h => (by cases h), ?_, ?_⟩ <;> decide +kernel

/-- The same with cancel-pending set. -/
def cancelling : State := line (.exchange 5) (withExch { exch5 .test .sending with cancelPending := true } (present 95 State.reset))

/-- A part whose receipt is on the line from count 94. -/
def receiving : State := (line (.receipt 7 4) (present 95 State.reset)).setRx
  { State.reset.rx with receipts := [{ unit := 7, number := 4, path := [20], grade := .g2, onLine := true }] }

/-- CollisionBacksOff: the second slot of a frame on the phase; the third slot; another phase; each holder; a backoff at its end,
and one slot before. -/
theorem witness_collision :
    let b := fun n : Count => (present n State.reset).setTx { state := .backoff, frame := none, backoffEnd := some 100 }
    LineInv (driving 95) ∧ MovesInv (driving 95) ∧ MovesInv (line (.announcement 1) State.reset)
      ∧ ((driving 95).tx.state = .sending ∧ (driving 95).tx.frame.map (fun f => (f.start, f.phase)) = some (94, .one .L2)
        ∧ (driving 95).count < 94 + 2 ∧ (driving 95).arb.holder = .exchange 5
        ∧ (driving 95).exch.table = [] ++ exch5 .test .sending :: [] ∧ (exch5 .test .sending).cancelPending = false)
      ∧ ((driving 96).tx.state = .sending ∧ 94 + 2 ≤ (driving 96).count ∧ Phase.L2 ≠ .L1)
      ∧ (line (.announcement 1) State.reset).arb.holder = .announcement 1
      ∧ (cancelling.tx = (driving 95).tx ∧ cancelling.arb.holder = .exchange (exch5 .test .sending).tag
        ∧ cancelling.exch.table = [] ++ { exch5 .test .sending with cancelPending := true } :: []
        ∧ ∀ e ∈ cancelling.disp.queue, isWork e = false)
      ∧ (receiving.tx = (driving 95).tx ∧ receiving.arb.holder = .receipt 7 4)
      ∧ ((b 100).tx.state = .backoff ∧ (b 100).tx.backoffEnd = some 100 ∧ 100 ≤ (b 100).count
        ∧ (b 100).time.state = .present ∧ (b 99).count < 100) := by
  refine ⟨lineInv_driving, movesInv_of ?_ ?_, movesInv_of ?_ ?_, ?_, ?_, ?_, ?_, ?_, ?_⟩ <;> decide +kernel

/-- The part with its exchange on the line, and a receive state of L2. -/
def hearing (x : PhaseState) : State :=
  (driving 95).setRx { (driving 95).rx with phases := (driving 95).rx.phases.set .L2 x }

theorem lineInv_hearing (x : PhaseState) : LineInv (hearing x) :=
  ⟨lineInv_driving.frame, lineInv_driving.backoff, lineInv_driving.holder, lineInv_driving.sending, lineInv_driving.announcing,
    lineInv_driving.mains, lineInv_driving.station⟩

/-- CollisionBacksOff: the phase QUIET, IGNORING, and ASSEMBLING with the carrier heard and with it ended. -/
theorem witness_collision_phases :
    let good := fun x => LineInv (hearing x) ∧ (hearing x).tx = (driving 95).tx ∧ (hearing x).count < 94 + 2
      ∧ (hearing x).rx.phases.get .L2 = x
    good .quiet ∧ good .ignoring ∧ good (.assembling 2 none) ∧ good (.assembling 2 (some 100)) := by
  refine ⟨⟨lineInv_hearing _, ?_⟩, ⟨lineInv_hearing _, ?_⟩, ⟨lineInv_hearing _, ?_⟩, ⟨lineInv_hearing _, ?_⟩⟩ <;>
    decide +kernel

/-- A part with its reference point at instant 40000 and its last real crossing there. -/
def referred (k : RefKind) (st : MainsState) (run : Nat) : State :=
  State.reset.setTime { State.reset.time with
    state := st, reference := some (40000, k), lastCounted := some (40000, .real), run := run }

/-- RealCrossingIsJudged: a first crossing with the line in order. -/
theorem witness_first_crossing : LineInv State.reset ∧ (∀ r k, State.reset.time.reference = some (r, k) →
    State.reset.time.period ≤ 2 * 1 - r) ∧ (∀ y, State.reset.time.lastCounted ≠ some (y, .real)) := by
  refine ⟨⟨?_, ?_, ?_, fun t h => (by cases h), fun g h => (by cases h), ?_, ?_⟩, fun r k h => (by cases h),
    fun y h => (by cases h)⟩ <;> decide +kernel

/-- RealCrossingIsJudged, with E 10000: an edge 4999.5 microseconds after a counted, and after a synthetic reference point; an edge
5000 after it; spacings of 7500 and 12500 and just outside them; with a run of 1, and of 2; a crossing that leaves LOST; and one with
a frame on the line, 1 and 2 slots before its end. -/
theorem witness_real_crossing :
    ((referred .counted .present 0).time.reference = some (40000, .counted) ∧ (referred .counted .present 0).time.period = 10000
        ∧ 2 * 24999 - 40000 < 10000 ∧ 10000 ≤ 2 * 25000 - 40000)
      ∧ (referred .synthetic .lost 0).time.reference = some (40000, .synthetic)
      ∧ (3 * 10000 ≤ 4 * ((2 * 27500 - 40000) / 2) ∧ 4 * ((2 * 27500 - 40000) / 2) ≤ 5 * 10000)
      ∧ (3 * 10000 ≤ 4 * ((2 * 32500 - 40000) / 2) ∧ 4 * ((2 * 32500 - 40000) / 2) ≤ 5 * 10000)
      ∧ ¬ (3 * 10000 ≤ 4 * ((2 * 27499 - 40000) / 2) ∧ 4 * ((2 * 27499 - 40000) / 2) ≤ 5 * 10000)
      ∧ (referred .counted .starting 1).time.lastCounted = some (40000, .real) ∧ (referred .counted .starting 1).time.run < 2
      ∧ 2 ≤ (referred .counted .lost 2).time.run ∧ (referred .counted .lost 2).time.state ≠ .present
      ∧ State.reset.time.run < 3 ∧ (after (.realCrossing 1) State.reset).time.state ≠ .present
      ∧ (after (.realCrossing 30000) (referred .counted .lost 0)).time.state ≠ .starting
      ∧ (after (.realCrossing 1) State.reset).time.state = .starting
      ∧ ((after (.realCrossing 5000) (driving 98)).time.state = .present ∧ (driving 98).tx.state = .sending
        ∧ (driving 98).tx.frame.map (·.endCount) = some 100 ∧ (driving 98).count + 1 < 100 ∧ ¬ (driving 99).count + 1 < 100) := by
  decide +kernel

/-- RealCrossingIsJudged: and no order could move, also at a crossing that enters PRESENT with room for its notices. -/
theorem witness_real_crossing_moves :
    MovesInv (driving 98) ∧ MovesInv (referred .counted .lost 2)
      ∧ ((after (.realCrossing 30000) (referred .counted .lost 2)).port .B).shedding = false
      ∧ ((referred .counted .lost 2).port .B).shedding = false ∧ ((referred .counted .lost 2).port .B).notices.length < 15 := by
  refine ⟨movesInv_of ?_ ?_, movesInv_of ?_ ?_, ?_⟩ <;> decide +kernel

/-- SyntheticCrossingLosesTheLine: with nothing on the line. -/
theorem witness_synthetic_idle :
    let s := present 95 State.reset
    MovesInv s ∧ s.time.due = some 30000 ∧ s.time.state ≠ .lost ∧ s.tx.state ≠ .sending
      ∧ ((after .syntheticCrossing s).port .A).shedding = false ∧ (s.port .A).shedding = false
      ∧ (s.port .A).notices.length < 15 := by
  refine ⟨movesInv_of ?_ ?_, ?_⟩ <;> decide +kernel

/-- R45, R49, R142: MAINS CHANGE follows the ORDER ENDED of the exchange whose frame the crossing abandons. -/
theorem test_mains_change_follows :
    ((after .syntheticCrossing cancelling).port .A).notices.map (·.body.kind) = [.orderEnded, .mainsChange] := by decide +kernel

/-- SyntheticCrossingLosesTheLine: a due time in PRESENT with an exchange on the line, one with cancel-pending set, a receipt, and an
announcement; and no due time. -/
theorem witness_synthetic :
    let a := line (.announcement 1) (sending (setQueue [.ann (entry low none true 1)] (present 95 State.reset)))
    LineInv (driving 95) ∧ MovesInv (driving 95) ∧ MovesInv a
      ∧ ((driving 95).time.due = some 30000 ∧ (driving 95).time.state ≠ .lost ∧ (driving 95).tx.state = .sending
        ∧ (driving 95).arb.holder = .exchange (exch5 .test .sending).tag
        ∧ (driving 95).exch.table = [] ++ exch5 .test .sending :: [] ∧ (exch5 .test .sending).cancelPending = false)
      ∧ (cancelling.time = (driving 95).time ∧ cancelling.tx.state = .sending
        ∧ cancelling.arb.holder = .exchange (exch5 .test .sending).tag
        ∧ cancelling.exch.table = [] ++ { exch5 .test .sending with cancelPending := true } :: []
        ∧ (∀ e ∈ cancelling.disp.queue, isWork e = false) ∧ ((after .syntheticCrossing cancelling).port .A).shedding = false)
      ∧ (receiving.time = (driving 95).time ∧ receiving.tx.state = .sending ∧ receiving.arb.holder = .receipt 7 4)
      ∧ (a.time = (driving 95).time ∧ a.tx.state = .sending ∧ a.arb.holder = .announcement 1
        ∧ Entry.ann (entry low none true 1) ∈ a.disp.queue ∧ (a.group 1).due = false)
      ∧ State.reset.time.due = none := by
  refine ⟨lineInv_driving, movesInv_of ?_ ?_, movesInv_of ?_ ?_, ?_, ?_, ?_, ?_, ?_⟩ <;> decide +kernel

/-- RealCrossingIsJudged, SyntheticCrossingLosesTheLine: at the first crossing after a line reset, an entry that is two slots ahead
and one whose reach opened at the crossing before, each with places for all. -/
theorem witness_crossing_pre_announces :
    let s := fun a => setQueue (others 15) (((active [] (some { setting := low, stamp := 8 }) (present 100 State.reset)).setSchedule
      [sched1 a .none]).setHeldBack true)
    let good := fun a : Count => sched1 a .none ∈ (s a).schedule
      ∧ (∀ x ∈ (s a).schedule, x.group = 1 → x ≠ sched1 a .none → a < x.activation) ∧ (s a).count + 1 < a
      ∧ a < (s a).count + 1 + min (s a).conf.leadWindow 65535 + announceSlots (s a).conf.broadcastGrade
      ∧ ((s a).group 1).holding = .active { setting := low, origin := .port .A } []
      ∧ (∀ q ∈ (s a).disp.queue, isAnnOf 1 q = false) ∧ ((s a).group 1).due = false ∧ ((s a).group 1).next = none
      ∧ (s a).disp.queue.length + (s a).schedule.length ≤ 16
    good 102 ∧ good 30107 ∧ (s 102).time.due = some 30000
      ∧ ((s 102).time.reference = some (0, .counted) ∧ (s 102).time.period ≤ 2 * 5000 - 0) := by
  refine ⟨?_, ?_, ?_⟩ <;> beta_reduce <;> decide +kernel

/-- FramesAreAssembled: a phase that is IGNORING, and ones that are ASSEMBLING with the carrier heard and ended; the part's own carrier to its last slot, and past it; a FREE buffer and none; each
test of R124 and a body that passes; and the carrier's end in each state. -/
theorem witness_assembled :
    let s := present 100 State.reset
    let ign := s.setRx { s.rx with phases := s.rx.phases.set .L1 .ignoring }
    let none' := s.setRx { s.rx with pool := Vector.replicate 4 (.held report7) }
    let frame : List Byte → Nat → UnitNo → Assembly := fun b m u =>
      { bytes := b, phase := .L1, grade := .g2, maxBody := m, station := u }
    (ign.rx.phases.get .L1 ≠ .quiet ∧ s.rx.phases.get .L1 = .quiet)
      ∧ ((driving 99).tx.state = .sending ∧ (driving 99).tx.frame.map (·.endCount) = some 100 ∧ (driving 99).count < 100
        ∧ (driving 99).rx.phases.get .L1 = .quiet ∧ 100 ≤ (driving 100).count)
      ∧ (s.rx.pool.get 0 = .free ∧ (∀ j < (0 : Fin 4), s.rx.pool.get j ≠ .free) ∧ s.tx.state ≠ .sending)
      ∧ ((∀ i, none'.rx.pool.get i ≠ .free) ∧ none'.rx.lost = false ∧ none'.rx.phases.get .L1 = .quiet)
      ∧ ((assembling [] false s).rx.phases.get .L1 = .assembling 2 none
        ∧ (assembling [] false s).rx.pool.get 2 = .assembling (frame [] 64 9)
        ∧ (frame [] 64 9).bytes.length = 0 ∧ (2 : Byte) ≠ 3 ∧ (2 : Byte) ≠ 4)
      ∧ ((frame [3, 0, 0] 64 9).bytes.length = 3 ∧ destOf ((frame [3, 0, 0] 64 9).bytes ++ [8]) ≠ (frame [3, 0, 0] 64 9).station)
      ∧ ((frame [3, 0, 0, 9, 0, 0, 7] 64 9).bytes.length = 7 ∧ (0x10 : Byte).toNat / 4 % 4 ≠ (0x10 : Byte).toNat / 16 % 4)
      ∧ ((frame (List.replicate 24 3) 24 9).maxBody ≤ (frame (List.replicate 24 3) 24 9).bytes.length
        ∧ ¬ (frame (List.replicate 23 3) 24 9).maxBody ≤ (frame (List.replicate 23 3) 24 9).bytes.length)
      ∧ (∀ i, s.rx.phases.get .L1 ≠ .assembling i none)
      ∧ ign.rx.phases.get .L1 = .ignoring ∧ (assembling [] true s).rx.phases.get .L1 = .assembling 2 (some 100) := by
  refine ⟨?_, ?_, ?_, ?_, ?_, ?_, ?_, ?_, ?_, ?_⟩ <;> decide +kernel

/-- CompletedFramesAreHandedOn: one slot before the completion count; at it, a body that fails the check, one already accepted, and
an ANSWER, a CATCH-UP and an EVENT report that pass; the EVENT report with a copy of it held; and another carrier
behind the frame. -/
theorem witness_handed_on :
    let ok := fun b : List Byte => frameCheck b = 0 ∧ bodyFits b = true
      ∧ (∀ u ∈ sourceOf b :: pathOf b, 1 ≤ u ∧ u ≤ 16777214)
    let early := assembling (body 3 [5, 1]) true (present 99 State.reset)
    let s := fun b => assembling b true (active [] (some { setting := low, stamp := 1 }) (present 100 State.reset))
    let twice := (s (body 4 [4, 2, 1])).setRx { (s (body 4 [4, 2, 1])).rx with receipts := [receipt 4 false] }
    let behind := (s (body 3 [5, 1])).setRx { (s (body 3 [5, 1])).rx with again := early.rx.again.set .L1 true }
    (behind.rx.again.get .L1 = true ∧ behind.rx.phases.get .L1 = .assembling 2 (some 100))
      ∧ (early.rx.phases.get .L1 = .assembling 2 (some 100) ∧ early.count < 100)
      ∧ ((s (body 3 [5, 1])).rx.phases.get .L1 = .assembling 2 (some 100) ∧ 100 ≤ (s (body 3 [5, 1])).count
        ∧ (s (body 3 [5, 1])).rx.accepted = [])
      ∧ frameCheck ((body 3 [5, 1]).set 0 4) ≠ 0
      ∧ (ok (body 3 [5, 1]) ∧ byteAt (body 3 [5, 1]) 0 = 3)
      ∧ (ok (body 4 [4, 1, 1]) ∧ byteAt (body 4 [4, 1, 1]) 0 = 4 ∧ byteAt (payloadOf (body 4 [4, 1, 1])) 1 = 1
        ∧ groupOf (byteAt (payloadOf (body 4 [4, 1, 1])) 2) = some 1
        ∧ isActive ((s (body 4 [4, 1, 1])).group 1).holding = true ∧ ((s (body 4 [4, 1, 1])).group 1).due = false
        ∧ ((s (body 4 [4, 1, 1])).group 1).next = none
        ∧ ((s (body 4 [4, 1, 1])).group 1).stated = some { setting := low, stamp := 1 }
        ∧ (s (body 4 [4, 1, 1])).disp.queue.length < 16)
      ∧ (ok (body 4 [4, 1, 64]) ∧ 64 ≤ (byteAt (payloadOf (body 4 [4, 1, 64])) 2).toNat)
      ∧ (ok (body 4 [4, 2, 1]) ∧ byteAt (payloadOf (body 4 [4, 2, 1])) 1 = 2
        ∧ (∃ j, (s (body 4 [4, 2, 1])).rx.pool.get j = .free) ∧ (s (body 4 [4, 2, 1])).rx.receipts.length < 4)
      ∧ (∃ r ∈ twice.rx.receipts, r.unit = sourceOf (body 4 [4, 2, 1]) ∧ r.number = byteAt (payloadOf (body 4 [4, 2, 1])) 0) := by
  refine ⟨?_, ?_, ?_, ?_, ?_, ?_, ?_, ?_, ?_⟩ <;> decide +kernel

/-- CompletedFramesAreHandedOn: bodies of one relay with payloads of 2, 3, 8, 18 and 19 bytes, and one too short for its path. -/
theorem witness_body_fits :
    let b := fun n => body 4 ([4, 2] ++ List.replicate n 0)
    (1 = (byteAt (b 0) 7).toNat / 16 % 4 ∧ (b 0).length = 10 + 3 * 1 + 2 ∧ (b 1).length = 10 + 3 * 1 + 3
        ∧ (b 6).length = 10 + 3 * 1 + 8 ∧ (b 16).length = 10 + 3 * 1 + 18 ∧ (b 17).length = 10 + 3 * 1 + 19)
      ∧ 2 = byteAt (b 0) (8 + 3 * 1 + 1) ∧ ((b 0).take 12).length < 10 + 3 * 1 := by decide +kernel

/-- RtakeTakesTheOldestReport: the other port; nothing held; a report held. -/
theorem witness_rtake : PortIdle .B State.reset ∧ Port.B ≠ State.reset.conf.reportPort
    ∧ PortIdle .A State.reset ∧ Port.A = State.reset.conf.reportPort ∧ State.reset.rx.heldOrder = []
    ∧ PortIdle .A atWork2 ∧ Port.A = atWork2.conf.reportPort ∧ atWork2.rx.heldOrder = 0 :: [] ∧ (0 : Fin 4) ∉ ([] : List (Fin 4))
    ∧ atWork2.rx.pool.get 0 = .held report7 :=
  ⟨idle_of (by decide +kernel), by decide +kernel, idle_of (by decide +kernel), by decide +kernel, by decide +kernel,
    idle_of (by decide +kernel), by decide +kernel, by decide +kernel, by decide, by decide +kernel⟩

/-- RoutesGoToTheirPlace, each way: a unit's own place, unpinned and pinned; the lowest empty place; the victim behind the last-used
place, past the end of the places; and none, with the one unpinned entry at the last-used place. -/
theorem witness_routes :
    (RouteInv (withRoute (route 7 false) State.reset).routes ∧ GoesTo 7 (withRoute (route 7 false) State.reset).routes 3)
      ∧ (∃ i r, (withRoute (route 7 true) State.reset).routes.places.get i = some r ∧ r.unit = 7 ∧ r.pinned = true)
      ∧ GoesTo 7 State.reset.routes 0
      ∧ (RouteInv (fullCache (fun i => i == 2 || i == 60) (some 63)) ∧ GoesTo 7 (fullCache (fun i => i == 2 || i == 60) (some 63)) 2)
      ∧ (RouteInv (fullCache (fun i => i == 60) (some 60)) ∧ FindsNoPlace 7 (fullCache (fun i => i == 60) (some 60)))
      ∧ PortIdle .A State.reset ∧ readRpin [0, 0, 7, 1, 0, 0, 20, 2, 1]
          = some { unit := 7, path := [20], phase := .L2, grade := .g1 } := by
  refine ⟨⟨routeInv_of, Or.inl ⟨route 7 false, by decide +kernel, rfl⟩⟩, ⟨3, route 7 true, by decide +kernel, rfl, rfl⟩,
    Or.inr (Or.inl ⟨fun j r h => ?_, by decide +kernel, fun j h => absurd h (Fin.not_lt_zero j)⟩),
    ⟨routeInv_full _ _, Or.inr (Or.inr ⟨unrouted_full _ _, fun j => ?_, ⟨⟨_, fullCache_get _ _ _, by decide⟩, ?_⟩⟩)⟩,
    ⟨routeInv_full _ _, unrouted_full _ _, fun j => ⟨_, fullCache_get _ _ _, ?_⟩⟩, idle_of (by decide +kernel), by decide +kernel⟩
  · have : (State.reset.routes.places.get j) = none := by simp [State.reset, Vector.get_eq_getElem]
    rw [this] at h
    cases h
  · rw [fullCache_get]
    simp
  · refine ⟨by decide, fun j hj hlt => ⟨_, fullCache_get _ _ _, ?_⟩⟩
    revert j
    decide +kernel
  · revert j
    decide +kernel

/-- RoutesAreFreedAndFlushed: a unit with a route, and one without. -/
theorem witness_freed : PortIdle .A (withRoute (route 7 true) State.reset) ∧ RouteInv (withRoute (route 7 true) State.reset).routes
    ∧ (withRoute (route 7 true) State.reset).routes.places.get 3 = some (route 7 true)
    ∧ (route 7 true).unit = 65536 * (0 : Byte).toNat + 256 * (0 : Byte).toNat + (7 : Byte).toNat
    ∧ Unrouted (65536 * (0 : Byte).toNat + 256 * (0 : Byte).toNat + (7 : Byte).toNat) (fullCache (fun _ => true) none)
    ∧ PortIdle .A (State.reset.setRoutes (fullCache (fun _ => true) none)) :=
  ⟨idle_of (by decide +kernel), routeInv_of, by decide +kernel, by decide, unrouted_full _ _, idle_of (by decide +kernel)⟩

/-- ReadsReturnWhatIsHeld: a part at work; a unit with a route, with no earlier place for it; fields too few and too many. -/
theorem witness_reads : PortIdle .A atWork2 ∧ atWork2.routes.places.get 3 = some (route 7 true)
    ∧ (∀ j < (3 : Fin 64), atWork2.routes.places.get j = none)
    ∧ Unrouted (65536 * (0 : Byte).toNat + 256 * (0 : Byte).toNat + (7 : Byte).toNat) (fullCache (fun _ => true) none)
    ∧ ([] : List Byte).length ≠ 1 ∧ [(0 : Byte)] ≠ [] ∧ [(0 : Byte), 0].length ≠ 3 :=
  ⟨idle_of (by decide +kernel), by decide +kernel, by decide +kernel, unrouted_full _ _, by decide, by decide, by decide⟩

/-- ConditionRequestsActOnTheirPort: fields that are no condition mask, one too few and one of another value. -/
theorem witness_conditions : PortIdle .A atWork2 ∧ (∀ m : CondSet, [1, 0, 1] ≠ encConds m)
    ∧ ∀ m : CondSet, [1, 0, 1, 2] ≠ encConds m := by
  refine ⟨idle_of (by decide +kernel), ?_, ?_⟩ <;>
  · rintro ⟨a, b, c, d⟩
    revert a b c d
    decide +kernel

/-- `n` notices on port A. -/
def noticed (n : Nat) : State :=
  updPort .A (fun c => { c with notices := List.replicate n { count := 0, body := .queueSpace }, attention := true }) State.reset

/-- NoticesAreQueuedAndFetched: 14 held, 15 held, shedding; a notice to fetch, none; a mask. -/
theorem witness_notices :
    let shed := notify .A .queueSpace (noticed 15)
    ((((noticed 14).port .A).shedding = false ∧ ((noticed 14).port .A).notices.length < 15)
        ∧ ((noticed 15).port .A).shedding = false ∧ 15 ≤ ((noticed 15).port .A).notices.length)
      ∧ ((shed.port .A).shedding = true ∧ (shed.port .A).notices = List.replicate 15 { count := 0, body := .queueSpace }
          ++ [{ count := 0, body := .overflow 1 (kindBit .queueSpace) 0 }])
      ∧ PortIdle .A (noticed 15) ∧ ((noticed 15).port .A).notices
          = { count := 0, body := .queueSpace } :: List.replicate 14 { count := 0, body := .queueSpace }
      ∧ PortIdle .A State.reset ∧ (State.reset.port .A).notices = []
      ∧ [(1 : Byte), 0, 0, 0, 0, 0, 0, 0, 0, 0, 1].length = 11
      ∧ ∀ k : Fin 11, [(1 : Byte), 0, 0, 0, 0, 0, 0, 0, 0, 0, 1][k.val]? = some (if (1025 : NoticeSet).getLsbD k.val then 1 else 0) := by
  refine ⟨?_, ?_, idle_of (by decide +kernel), ?_, idle_of (by decide +kernel), ?_, ?_, ?_⟩ <;> decide +kernel

/-- ConfSetsTheParameters: a value at its edge and one past it; the report port moved with a report held, to the other port with 13
notices held there, and to the requesting one; the station number made 0
with the Transmitter IDLE, changed with it IDLE, and set with it DORMANT in PRESENT. -/
theorem witness_conf :
    let dormant := (present 100 State.reset).setTx { state := .dormant, frame := none, backoffEnd := none }
    let s := updPort .B (fun c => { c with notices := List.replicate 13 { count := 0, body := .queueSpace } }) atWork2
    PortIdle .A atWork2 ∧ readConf [10, 3, 255, 11, 0, 2] = some [(.holdInterval, 1023), (.reportPort, 2)]
      ∧ readConf [10, 4, 0] = some [(.holdInterval, 1024)]
      ∧ atWork2.rx.heldOrder = 0 :: [] ∧ atWork2.rx.pool.get 0 = .held report7
      ∧ (after (.conf .A [10, 3, 255, 11, 0, 2]) atWork2).conf.reportPort ≠ atWork2.conf.reportPort
      ∧ (PortIdle .A s ∧ s.rx.heldOrder = 0 :: [] ∧ s.rx.pool.get 0 = .held report7 ∧ s.conf.reportPort ≠ .B
        ∧ (after (.conf .A [10, 3, 255, 11, 0, 2]) s).conf.reportPort = otherPort .A ∧ (s.port (otherPort .A)).shedding = false
        ∧ (s.port (otherPort .A)).notices.length < 14)
      ∧ (PortIdle .B atWork2 ∧ (after (.conf .B [10, 3, 255, 11, 0, 2]) atWork2).conf.reportPort = .B)
      ∧ PortIdle .A (present 100 State.reset) ∧ readConf [1, 0, 0, 0] = some [(.station, 0)]
      ∧ (present 100 State.reset).tx.state ≠ .sending
      ∧ (after (.conf .A [1, 0, 0, 0]) (present 100 State.reset)).conf.station = 0
      ∧ ((present 100 State.reset).tx.state ≠ .dormant ∧ (present 100 State.reset).conf.station = 9
        ∧ (after (.conf .A [1, 0, 0, 8]) (present 100 State.reset)).conf.station ≠ 0)
      ∧ PortIdle .A dormant ∧ readConf [1, 0, 0, 8] = some [(.station, 8)] ∧ dormant.tx.state = .dormant
      ∧ dormant.time.state = .present ∧ (after (.conf .A [1, 0, 0, 8]) dormant).conf.station ≠ 0 := by
  refine ⟨idle_of (by decide +kernel), ?_, ?_, ?_, ?_, ?_, ⟨idle_of (by decide +kernel), ?_⟩, ⟨idle_of (by decide +kernel), ?_⟩,
    idle_of (by decide +kernel), ?_, ?_, ?_, ?_, idle_of (by decide +kernel), ?_, ?_, ?_, ?_⟩ <;> decide +kernel

end Sys2Proof.Tests
end

section
/-! ## Reads (R39, R53, R169, R186) -/

namespace Sys2Proof.Machine

/-- R39: the entries an SREAD returns: those at the start index and the 4 behind it, each with its index. -/
theorem entriesFrom_getElem? (start : Nat) (es : List SchedEntry) (k : Nat) :
    (entriesFrom start es)[k]? = if k < 5 then (es[start + k]?).map (fun e => (start + k, e)) else none := by
  unfold entriesFrom
  rw [List.getElem?_take]
  split
  · simp only [List.getElem?_drop, List.getElem?_map, List.getElem?_zipIdx, Option.map_map]
    congr 1
    funext e
    simp
  · rfl

/-- R174: three bytes are read as a unit number, most significant byte first. -/
theorem readUnit_three (a b c : Byte) :
    readUnit [a, b, c] = some (65536 * a.toNat + 256 * b.toNat + c.toNat) := by
  have hsum : 256 * (256 * (256 * 0 + a.toNat) + b.toNat) + c.toNat = 65536 * a.toNat + 256 * b.toNat + c.toNat := by omega
  exact congrArg some hsum

/-- A request without fields takes none. -/
theorem readNothing_of_ne_nil {fields : List Byte} (h : fields ≠ []) : readNothing fields = none := by
  cases fields with
  | nil => exact absurd rfl h
  | cons b bs => rfl

/-- A request of one byte takes no more and no fewer. -/
theorem readByte_of_length_ne {fields : List Byte} (h : fields.length ≠ 1) : readByte fields = none := by
  match fields with
  | [] => rfl
  | [b] => exact absurd rfl h
  | _ :: _ :: _ => rfl

/-- A unit number takes three bytes, no more and no fewer. -/
theorem readUnit_of_length_ne {fields : List Byte} (h : fields.length ≠ 3) : readUnit fields = none := by
  match fields with
  | [] => rfl
  | [_] => rfl
  | [_, _] => rfl
  | [_, _, _] => exact absurd rfl h
  | _ :: _ :: _ :: _ :: _ => rfl

/-! ### The unit's entry in the Route Cache -/

theorem holdsUnit_iff (c : RouteCache) (u : UnitNo) (i : Fin 64) :
    holdsUnit c u i = true ↔ ∃ r, c.places.get i = some r ∧ r.unit = u := by
  unfold holdsUnit
  cases c.places.get i <;> simp

/-- The unit's entry is looked for in place order: the first that bears its number is found. -/
theorem placeOf_eq_some {c : RouteCache} {u : UnitNo} {i : Fin 64} {r : Route} (hr : c.places.get i = some r) (hu : r.unit = u)
    (hfirst : ∀ j < i, ∀ q, c.places.get j = some q → q.unit ≠ u) : placeOf c u = some i := by
  unfold placeOf
  refine List.find?_eq_some_iff_getElem.2 ⟨(holdsUnit_iff c u i).2 ⟨r, hr, hu⟩, i.val, by simp, by simp, fun j hj => ?_⟩
  have hj64 : j < 64 := hj.trans i.isLt
  rw [List.getElem_finRange, Bool.not_eq_true', ← Bool.not_eq_true, holdsUnit_iff]
  rintro ⟨q, hq, hqu⟩
  exact hfirst _ hj q hq hqu

theorem placeOf_eq_none {c : RouteCache} {u : UnitNo} (h : Unrouted u c) : placeOf c u = none := by
  unfold placeOf
  refine List.find?_eq_none.2 fun i _ hi => ?_
  obtain ⟨r, hr, hu⟩ := (holdsUnit_iff c u i).1 hi
  exact h i r hr hu

theorem pinnedRoutes_eq (c : RouteCache) :
    pinnedRoutes c = (List.finRange 64).countP (fun i => (c.places.get i).any (·.pinned)) := by
  unfold pinnedRoutes
  congr 1
  funext i
  cases c.places.get i <;> rfl

/-! ### The four reads on an idle port -/

section
variable {p : Port} {s : State} (h : PortIdle p s)
include h

theorem exec_sread_idle (start : Byte) :
    exec (.sread p [start]) s
      = .next (answer p .sread .done none (.schedule s.schedule.length (entriesFrom start.toNat s.schedule)) id s) := by
  change Host.Outcome.next (requestStep p .sread [start] (actSread p [start]) s) = _
  rw [requestStep_idle h (by simp), ← reply_taken_answer]
  rfl

theorem exec_time_idle :
    exec (.time p []) s = .next (answer p .time .done none (.time s.count s.time.state s.time.period) id s) := by
  change Host.Outcome.next (requestStep p .time [] (actTime p []) s) = _
  rw [requestStep_idle h (by simp), ← reply_taken_answer]
  rfl

theorem exec_cread_idle : exec (.cread p []) s = .next (answer p .cread .done none (.params s.conf) id s) := by
  change Host.Outcome.next (requestStep p .cread [] (actCread p []) s) = _
  rw [requestStep_idle h (by simp), ← reply_taken_answer]
  rfl

theorem exec_rread_idle {fields : List Byte} {u : UnitNo} (hu : readUnit fields = some u) (l : fields.length ≤ 70) :
    exec (.rread p fields) s
      = .next (answer p .rread (if (readRoute u s.routes).isSome then .done else .notFound) none
          (.route (readRoute u s.routes) (heldRoutes s.routes) (pinnedRoutes s.routes)) id s) := by
  change Host.Outcome.next (requestStep p .rread fields (actRread p fields) s) = _
  rw [requestStep_idle h l, ← reply_taken_answer]
  unfold actRread
  split
  · rename_i hnone
    cases hu.symm.trans hnone
  · rename_i v hsome
    cases hu.symm.trans hsome
    rfl

end

/-- Settles O57: each read answers from the state as it stands, since a taken request changes its port alone. -/
theorem readsReturnWhatIsHeld : Obligations.ReadsReturnWhatIsHeld := by
  intro p s h
  refine ⟨fun start => ⟨_, exec_sread_idle h start, entriesFrom_getElem? _ _⟩, exec_time_idle h, exec_cread_idle h, ?_, ?_⟩
  · rintro a b c held pinned rfl rfl
    have hu := readUnit_three a b c
    refine ⟨fun i r hr hru hfirst => ?_, fun hun => ?_⟩
    · have hplace := placeOf_eq_some hr rfl hfirst
      rw [exec_rread_idle h hu (by simp), ← hru]
      have hread : readRoute r.unit s.routes = some { place := i, route := r, lastUsed := s.routes.lastUsed == some i } := by
        simp only [readRoute, hplace, hr, Option.map_some, beq_eq_decide]
      rw [hread, pinnedRoutes_eq]
      rfl
    · have hread : readRoute (65536 * a.toNat + 256 * b.toNat + c.toNat) s.routes = none := by
        simp only [readRoute, placeOf_eq_none hun]
      rw [exec_rread_idle h hu (by simp), hread, pinnedRoutes_eq]
      rfl
  · intro fields
    refine ⟨fun hf => ?_, fun hf => ⟨?_, ?_⟩, fun hf => ?_⟩ <;> refine congrArg _ (requestStep_malformed h ?_)
    · simp only [actSread, readByte_of_length_ne hf]
    · simp only [actTime, readNothing_of_ne_nil hf]
    · simp only [actCread, readNothing_of_ne_nil hf]
    · simp only [actRread, readUnit_of_length_ne hf]

end Sys2Proof.Machine
end

section
/-! ## Announcement requests (R59 to R63): what each part of a request does -/

namespace Sys2Proof.Machine

/-! ### Absorption (R60) -/

theorem any_absorbs_iff (r : AnnReq) (count : Count) (q : List Entry) :
    q.any (absorbs r count) = true ↔ ∃ a v, Entry.ann a ∈ q
      ∧ a.group = r.group ∧ a.flavour = .new ∧ a.content = r.content ∧ a.activation = some v ∧ v ≤ count := by
  rw [List.any_eq_true]
  constructor
  · rintro ⟨e, he, habs⟩
    cases e with
    | ann a =>
      cases hv : a.activation with
      | none => simp [absorbs, hv] at habs
      | some v =>
        simp only [absorbs, hv, Bool.and_eq_true, decide_eq_true_eq] at habs
        obtain ⟨⟨⟨hg, hfl⟩, hc⟩, hle⟩ := habs
        exact ⟨a, v, he, hg, hfl, hc, hv, hle⟩
    | order o => simp [absorbs] at habs
    | fence p => simp [absorbs] at habs
  · rintro ⟨a, v, ha, hg, hfl, hc, hv, hle⟩
    exact ⟨.ann a, ha, by simp [absorbs, hg, hfl, hc, hv, hle]⟩

theorem request_absorbed {r : AnnReq} {s : State} (hnow : r.activation = none)
    (habs : s.disp.queue.any (absorbs r s.count) = true) : request r s = ⟨s, false, 0⟩ := if_pos ⟨hnow, habs⟩

/-! ### Cut-short (R61) -/

@[simp] theorem setQueue_self (s : State) : setQueue s.disp.queue s = s := rfl

/-- R61: with no entry of the group in flight nothing is cut short. -/
theorem cutShort_of_none {g : GroupNo} {s : State} (h : ∀ e ∈ s.disp.queue, isInFlight g e = false) : cutShort g s = (s, 0) := by
  have hstay : s.disp.queue.filter (fun e => !isInFlight g e) = s.disp.queue := by simpa using h
  have hgone : s.disp.queue.filter (isInFlight g) = [] := by simpa using h
  simp only [cutShort, hstay, hgone, setQueue_self, List.foldl_nil, List.length_nil]

theorem request_of_noInFlight {r : AnnReq} {s : State}
    (hna : ¬ (r.activation = none ∧ s.disp.queue.any (absorbs r s.count) = true))
    (h : ∀ e ∈ s.disp.queue, isInFlight r.group e = false) : request r s = place r 0 s := by
  rw [request, if_neg hna, cutShort_of_none h]

/-! ### The last segment (R59) -/

theorem lastSegmentStart_of_noFence {seg : List Entry} (h : ∀ e ∈ seg, isFence e = false) : lastSegmentStart seg = 0 := by
  cases seg with
  | nil => rfl
  | cons e es =>
    have hes : es.any isFence = false := by simpa using fun x hx => h x (List.mem_cons_of_mem _ hx)
    simp [lastSegmentStart, hes, h e]

/-- R59: the last segment begins behind the last fence. -/
theorem lastSegmentStart_append {front seg : List Entry} (hfront : front = [] ∨ ∃ p, front.getLast? = some (.fence p))
    (hseg : ∀ e ∈ seg, isFence e = false) : lastSegmentStart (front ++ seg) = front.length := by
  induction front with
  | nil => exact lastSegmentStart_of_noFence hseg
  | cons e es ih =>
    obtain ⟨p, hp⟩ := hfront.resolve_left (List.cons_ne_nil _ _)
    have hnone : seg.any isFence = false := by simpa using hseg
    cases es with
    | nil =>
      obtain rfl : e = .fence p := by simpa using hp
      simp [lastSegmentStart, hnone, isFence]
    | cons x xs =>
      have hlast : (x :: xs).getLast? = some (.fence p) := by simpa [List.getLast?_cons_cons] using hp
      have hany : ((x :: xs) ++ seg).any isFence = true :=
        List.any_eq_true.2 ⟨_, List.mem_append_left _ (List.mem_of_getLast? hlast), rfl⟩
      rw [List.cons_append, lastSegmentStart, if_pos hany, ih (.inr ⟨p, hlast⟩)]
      rfl

/-! ### Merge, append and refusal (R62, R63) -/

theorem mergeIn_cons_of_not {r : AnnReq} {e : Entry} (es : List Entry) (h : isAnnOf r.group e = false) :
    mergeIn r (e :: es) = (mergeIn r es).map fun x => (e :: x.1, x.2) := by
  cases e with
  | ann a =>
    have hg : a.group ≠ r.group := by simpa [isAnnOf] using h
    simp [mergeIn, isNotStarted, hg]
  | order o => rfl
  | fence p => rfl

/-- R62: with no entry of the group there is nothing to merge into. -/
theorem mergeIn_of_none {r : AnnReq} {seg : List Entry} (h : ∀ e ∈ seg, isAnnOf r.group e = false) : mergeIn r seg = none := by
  induction seg with
  | nil => rfl
  | cons e es ih =>
    rw [mergeIn_cons_of_not es (h e List.mem_cons_self), ih fun x hx => h x (List.mem_cons_of_mem _ hx)]
    rfl

/-- R62: the group's first entry, not started, takes the request in its place. -/
theorem mergeIn_first {r : AnnReq} {a : Ann} (ahead behind : List Entry) (hg : a.group = r.group) (hs : a.started = false)
    (hahead : ∀ e ∈ ahead, isAnnOf r.group e = false) :
    mergeIn r (ahead ++ .ann a :: behind) = some (ahead ++ .ann (mergeAnn r a) :: behind, a.activation) := by
  induction ahead with
  | nil => simp [mergeIn, isNotStarted, hg, hs]
  | cons e es ih =>
    rw [List.cons_append, mergeIn_cons_of_not _ (hahead e List.mem_cons_self),
      ih fun x hx => hahead x (List.mem_cons_of_mem _ hx)]
    rfl

/-- R28: the mark of a linked schedule entry is moved from QUEUED, and with no activation no mark is. -/
theorem moveMark_eq (g : GroupNo) (old : Option Count) (m : Mark) (s : State) :
    moveMark g old m s = s.setSchedule (s.schedule.map fun e =>
      if e.group = g ∧ old = some e.activation ∧ e.mark = .queued then { e with mark := m } else e) := by
  cases old with
  | none =>
    have hsame : (s.schedule.map fun e =>
        if e.group = g ∧ none = some e.activation ∧ e.mark = .queued then { e with mark := m } else e) = s.schedule := by
      simp
    rw [hsame]
    rfl
  | some a =>
    simp only [moveMark, Option.some.injEq, eq_comm (a := a)]

theorem place_merge {r : AnnReq} {n : Nat} {s : State} {tail : List Entry} {old : Option Count} {k : Nat}
    (hk : lastSegmentStart s.disp.queue = k) (h : mergeIn r (s.disp.queue.drop k) = some (tail, old)) :
    place r n s = ⟨moveMark r.group old .none (setQueue (s.disp.queue.take k ++ tail) s), false, n⟩ := by
  simp only [place, hk, h]

theorem place_append {r : AnnReq} {n : Nat} {s : State}
    (h : mergeIn r (s.disp.queue.drop (lastSegmentStart s.disp.queue)) = none) (hroom : s.disp.queue.length < 16) :
    place r n s = ⟨setQueue (s.disp.queue ++ [.ann (newAnn r s.count)]) s, true, n - 1⟩ := by
  have hfree : placeFree s = true := decide_eq_true hroom
  simp only [place, h, hfree, if_true]

theorem place_refused {r : AnnReq} {n : Nat} {s : State}
    (h : mergeIn r (s.disp.queue.drop (lastSegmentStart s.disp.queue)) = none) (hfull : 16 ≤ s.disp.queue.length) :
    place r n s = ⟨if r.activation = none then setDue r.group true s else s, false, n⟩ := by
  have hfree : placeFree s = false := decide_eq_false (Nat.not_lt.2 hfull)
  cases hact : r.activation <;> simp [place, h, hfree, hact]

/-- Settles O21: the three outcomes behind absorption are those of `place` on the last segment. -/
theorem requestIsAbsorbedMergedAppendedOrRefused : Obligations.RequestIsAbsorbedMergedAppendedOrRefused := by
  intro r s absorbed habsorbed
  rw [← any_absorbs_iff] at habsorbed
  refine ⟨fun h => ?_, fun h hflight front seg hq hfront hseg => ?_⟩
  · obtain ⟨hnow, habs⟩ := habsorbed.1 h
    rw [request_absorbed hnow habs]
    exact ⟨rfl, rfl, rfl⟩
  · rw [request_of_noInFlight (fun hab => h (habsorbed.2 hab)) hflight]
    have hk : lastSegmentStart s.disp.queue = front.length := hq ▸ lastSegmentStart_append hfront hseg
    have hdrop : s.disp.queue.drop (lastSegmentStart s.disp.queue) = seg := by rw [hk, hq, List.drop_left]
    refine ⟨fun ahead a behind hsplit hg hahead => ?_, fun hnone hroom => ?_, fun hnone hfull => ?_⟩
    · have hstarted : a.started = false := by simpa [isInFlight, hg] using hflight (.ann a) (by simp [hq, hsplit])
      have hmerge := mergeIn_first ahead behind hg hstarted hahead
      rw [← hsplit, ← hdrop, hk] at hmerge
      rw [place_merge hk hmerge, moveMark_eq, hq, List.take_left, List.append_assoc]
      exact ⟨rfl, rfl, rfl⟩
    · rw [place_append (hdrop ▸ mergeIn_of_none hnone) hroom]
      exact ⟨rfl, rfl, rfl⟩
    · rw [place_refused (hdrop ▸ mergeIn_of_none hnone) hfull]
      exact ⟨rfl, rfl, rfl⟩

end Sys2Proof.Machine
end

section
/-! ## What the requests of one group do, and what they leave alone of another (R61 to R63, R65, R73) -/

namespace Sys2Proof.Machine

/-- The small steps of an announcement request and a check of group `g`. -/
inductive GroupStep (g : GroupNo) : State → State → Prop where
  | notice (p : Port) (b : NoticeBody) (s : State) : GroupStep g s (notify p b s)
  | record (f : GroupRec → GroupRec) (s : State) : GroupStep g s (updGroup g f s)
  | marks (f : SchedEntry → SchedEntry) (s : State) (hgroup : ∀ e, (f e).group = e.group)
      (hother : ∀ e, e.group ≠ g → f e = e) : GroupStep g s (s.setSchedule (s.schedule.map f))
  | queue (q : List Entry) (s : State)
      (hother : ∀ h, h ≠ g → q.filter (isAnnOf h) = s.disp.queue.filter (isAnnOf h)) : GroupStep g s (setQueue q s)
  | abandon (s : State) : GroupStep g s (abandonFor g s)

/-- A chain of small steps of one group. -/
abbrev GroupSteps (g : GroupNo) : State → State → Prop := Relation.ReflTransGen (GroupStep g)

theorem GroupSteps.rfl' {g : GroupNo} {s : State} : GroupSteps g s s := Relation.ReflTransGen.refl

theorem GroupStep.one {g : GroupNo} {s t : State} (h : GroupStep g s t) : GroupSteps g s t := Relation.ReflTransGen.single h

/-! ### The operations of a group, each a chain -/

theorem notifyOrigin_groupSteps (g : GroupNo) (p : Option Port) (b : NoticeBody) (s : State) :
    GroupSteps g s (notifyOrigin p b s) := by
  cases p with
  | none => exact GroupSteps.rfl'
  | some p => exact (GroupStep.notice p b s).one

theorem moveMark_groupSteps (g : GroupNo) (old : Option Count) (m : Mark) (s : State) :
    GroupSteps g s (moveMark g old m s) := by
  rw [moveMark_eq]
  refine (GroupStep.marks _ s (fun e => ?_) (fun e he => ?_)).one
  · split <;> rfl
  · exact if_neg fun h => he h.1

theorem clearNext_groupSteps (g : GroupNo) (s : State) : GroupSteps g s (clearNext g s) := by
  unfold clearNext
  split
  · refine (GroupStep.record (fun r => { r with next := none }) s).one.trans
      (GroupStep.marks _ _ (fun e => ?_) (fun e he => ?_)).one
    · split <;> rfl
    · exact if_neg fun h => he h.1
  · exact GroupSteps.rfl'

theorem applyNext_groupSteps (g : GroupNo) (s : State) : GroupSteps g s (applyNext g s) := by
  unfold applyNext
  split
  · rename_i n _
    split
    · exact (GroupStep.record
        (fun r => { r with stated := some { setting := n.setting, stamp := n.stamp }, next := none }) s).one
    · exact GroupSteps.rfl'
  · exact GroupSteps.rfl'

theorem reportCutShort_groupSteps {g : GroupNo} {a : Ann} (hg : a.group = g) (s : State) :
    GroupSteps g s (reportCutShort a s) := by
  subst hg
  exact ((((GroupStep.abandon s).one.trans (notifyOrigin_groupSteps _ _ _ _)).trans
    (GroupStep.record (fun r => { r with stated := none }) _).one).trans (clearNext_groupSteps _ _)).trans
      (moveMark_groupSteps _ _ _ _)

/-- An entry in flight of one group is no announcement entry of another. -/
theorem isAnnOf_of_isInFlight {g h : GroupNo} (hne : h ≠ g) {e : Entry} (he : isInFlight g e = true) : isAnnOf h e = false := by
  cases e with
  | ann a =>
    obtain ⟨hg, -⟩ : a.group = g ∧ a.started = true := by simpa [isInFlight] using he
    simpa [isAnnOf, hg] using hne.symm
  | order o => rfl
  | fence p => rfl

theorem cutShort_groupSteps (g : GroupNo) (s : State) : GroupSteps g s (cutShort g s).1 := by
  have hfold : ∀ (gone : List Entry) (u : State), (∀ e ∈ gone, isInFlight g e = true) →
      GroupSteps g u (gone.foldl (fun s e =>
        match e with
        | .ann a => reportCutShort a s
        | _ => s) u) := by
    intro gone
    induction gone with
    | nil => exact fun u _ => GroupSteps.rfl'
    | cons e es ih =>
      intro u hall
      refine Relation.ReflTransGen.trans ?_ (ih _ fun x hx => hall x (List.mem_cons_of_mem _ hx))
      have he := hall e List.mem_cons_self
      cases e with
      | ann a =>
        obtain ⟨hg, -⟩ : a.group = g ∧ a.started = true := by simpa [isInFlight] using he
        exact reportCutShort_groupSteps hg u
      | order o => exact GroupSteps.rfl'
      | fence p => exact GroupSteps.rfl'
  refine (GroupStep.queue _ s fun h hne => ?_).one.trans (hfold _ _ fun e he => (List.mem_filter.1 he).2)
  rw [List.filter_filter]
  refine List.filter_congr fun e _ => ?_
  cases he : isInFlight g e with
  | true => simp [isAnnOf_of_isInFlight hne he]
  | false => simp

theorem mergeIn_filter {r : AnnReq} {h : GroupNo} (hne : h ≠ r.group) {q : List Entry} {x : List Entry × Option Count}
    (hm : mergeIn r q = some x) : x.1.filter (isAnnOf h) = q.filter (isAnnOf h) := by
  induction q generalizing x with
  | nil => cases hm
  | cons e es ih =>
    by_cases hn : isNotStarted r.group e = true
    · cases e with
      | ann a =>
        obtain ⟨hg, -⟩ : a.group = r.group ∧ a.started = false := by simpa [isNotStarted] using hn
        have ha : isAnnOf h (.ann a) = false := by simpa [isAnnOf, hg] using hne.symm
        have ha' : isAnnOf h (.ann (mergeAnn r a)) = false := ha
        simp only [mergeIn, hn, if_true, Option.some.injEq] at hm
        subst hm
        rw [List.filter_cons_of_neg (by simp [ha']), List.filter_cons_of_neg (by simp [ha])]
      | order o => cases hn
      | fence p => cases hn
    · obtain ⟨y, hy, rfl⟩ : ∃ y, mergeIn r es = some y ∧ (e :: y.1, y.2) = x := by
        cases e <;> simpa [mergeIn, hn] using hm
      simp only [List.filter_cons, ih hy]

theorem place_groupSteps (r : AnnReq) (n : Nat) (s : State) : GroupSteps r.group s (place r n s).state := by
  cases hm : mergeIn r (s.disp.queue.drop (lastSegmentStart s.disp.queue)) with
  | some x =>
    rw [place_merge rfl (show _ = some (x.1, x.2) from hm)]
    refine (GroupStep.queue _ s fun h hne => ?_).one.trans (moveMark_groupSteps _ _ _ _)
    rw [List.filter_append, mergeIn_filter hne hm, ← List.filter_append, List.take_append_drop]
  | none =>
    by_cases hroom : s.disp.queue.length < 16
    · rw [place_append hm hroom]
      refine (GroupStep.queue _ s fun h hne => ?_).one
      have ha : isAnnOf h (.ann (newAnn r s.count)) = false := decide_eq_false hne.symm
      simp [ha]
    · rw [place_refused hm (Nat.not_lt.1 hroom)]
      dsimp only
      split
      · exact (GroupStep.record (fun x => { x with due := true }) s).one
      · exact GroupSteps.rfl'

theorem request_groupSteps {g : GroupNo} {r : AnnReq} (hg : r.group = g) (s : State) :
    GroupSteps g s (request r s).state := by
  subst hg
  unfold request
  split
  · exact GroupSteps.rfl'
  · exact (cutShort_groupSteps _ _).trans (place_groupSteps _ _ _)

theorem check_groupSteps (g : GroupNo) (s : State) : GroupSteps g s (check g s).state := by
  unfold check
  simp only
  split
  · exact applyNext_groupSteps g s
  · split
    · refine (applyNext_groupSteps g s).trans ?_
      exact request_groupSteps (g := g) rfl _
    · exact applyNext_groupSteps g s

/-! ### What they leave alone -/

/-- The record, the announcement entries and the schedule entries of a group stand as they stood. -/
structure LeavesGroup (h : GroupNo) (s t : State) : Prop where
  record : t.group h = s.group h
  anns : t.disp.queue.filter (isAnnOf h) = s.disp.queue.filter (isAnnOf h)
  entries : t.schedule.filter (fun e => decide (e.group = h)) = s.schedule.filter (fun e => decide (e.group = h))

theorem LeavesGroup.rfl' {h : GroupNo} {s : State} : LeavesGroup h s s := ⟨rfl, rfl, rfl⟩

theorem LeavesGroup.trans {h : GroupNo} {s t u : State} (x : LeavesGroup h s t) (y : LeavesGroup h t u) : LeavesGroup h s u :=
  ⟨y.record.trans x.record, y.anns.trans x.anns, y.entries.trans x.entries⟩

theorem LeavesGroup.of_eq {h : GroupNo} {s t : State} (hg : t.groups = s.groups) (hq : t.disp.queue = s.disp.queue)
    (he : t.schedule = s.schedule) : LeavesGroup h s t := by
  refine ⟨?_, by rw [hq], by rw [he]⟩
  rw [State.group, State.group, hg]

theorem LeavesGroup.ann_mem_iff {h : GroupNo} {s t : State} (x : LeavesGroup h s t) {a : Ann} (ha : a.group = h) :
    Entry.ann a ∈ t.disp.queue ↔ Entry.ann a ∈ s.disp.queue := by
  have hmem : ∀ q : List Entry, Entry.ann a ∈ q ↔ Entry.ann a ∈ q.filter (isAnnOf h) := fun q => by
    simp [List.mem_filter, isAnnOf, ha]
  rw [hmem t.disp.queue, x.anns, ← hmem]

theorem LeavesGroup.entry_mem_iff {h : GroupNo} {s t : State} (x : LeavesGroup h s t) {e : SchedEntry} (he : e.group = h) :
    e ∈ t.schedule ↔ e ∈ s.schedule := by
  have hmem : ∀ l : List SchedEntry, e ∈ l ↔ e ∈ l.filter (fun e => decide (e.group = h)) := fun l => by
    simp [List.mem_filter, he]
  rw [hmem t.schedule, x.entries, ← hmem]

theorem filter_map_of_other {g h : GroupNo} (hne : h ≠ g) {f : SchedEntry → SchedEntry} (hgroup : ∀ e, (f e).group = e.group)
    (hother : ∀ e, e.group ≠ g → f e = e) (l : List SchedEntry) :
    (l.map f).filter (fun e => decide (e.group = h)) = l.filter (fun e => decide (e.group = h)) := by
  induction l with
  | nil => rfl
  | cons e es ih =>
    simp only [List.map_cons, List.filter_cons, hgroup, ih]
    by_cases he : e.group = h
    · rw [hother e (he ▸ hne)]
    · simp [he]

theorem abandonFor_leavesGroup (g h : GroupNo) (s : State) : LeavesGroup h s (abandonFor g s) := by
  unfold abandonFor
  split
  · split
    · exact .of_eq rfl rfl rfl
    · exact .rfl'
  · exact .rfl'

/-- A small step of one group leaves every other group alone. -/
theorem GroupStep.leavesGroup {g h : GroupNo} (hne : h ≠ g) {s t : State} (x : GroupStep g s t) : LeavesGroup h s t := by
  cases x with
  | notice p b _ => exact .of_eq rfl rfl rfl
  | record f _ => exact ⟨updGroup_group_ne _ _ hne, rfl, rfl⟩
  | marks f _ hgroup hother => exact ⟨rfl, rfl, filter_map_of_other hne hgroup hother _⟩
  | queue q _ hother => exact ⟨rfl, hother h hne, rfl⟩
  | abandon _ => exact abandonFor_leavesGroup g h s

theorem GroupSteps.leavesGroup {g h : GroupNo} (hne : h ≠ g) {s t : State} (x : GroupSteps g s t) : LeavesGroup h s t := by
  induction x with
  | refl => exact .rfl'
  | tail _ hstep ih => exact ih.trans (hstep.leavesGroup hne)

@[simp] theorem abandonFor_exch (g : GroupNo) (s : State) : (abandonFor g s).exch = s.exch := by
  unfold abandonFor
  split
  · split <;> rfl
  · rfl

/-- No request and no check touches the Exchange Engine. -/
theorem GroupSteps.exch {g : GroupNo} {s t : State} (x : GroupSteps g s t) : t.exch = s.exch := by
  induction x with
  | refl => rfl
  | tail _ hstep ih =>
    rw [← ih]
    cases hstep with
    | abandon _ => exact abandonFor_exch _ _
    | _ => rfl

/-! ### Offers, moves and the closing of an event -/

theorem setDue_leavesGroup {g h : GroupNo} (hne : h ≠ g) (b : Bool) (s : State) : LeavesGroup h s (setDue g b s) :=
  ⟨updGroup_group_ne _ _ hne, rfl, rfl⟩

theorem due_of_lowestDue {s : State} {g : GroupNo} (h : lowestDue s = some g) : (s.group g).due = true :=
  List.find?_some (p := fun g => (s.group g).due) h

/-- R65: offers of freed places reach the due groups alone. -/
theorem offerPlaces_leavesGroup {h : GroupNo} (k n : Nat) {s : State} (hdue : (s.group h).due = false) :
    LeavesGroup h s (offerPlaces k n s) := by
  induction k generalizing n s with
  | zero => exact .rfl'
  | succ k ih =>
    unfold offerPlaces
    split
    · exact .rfl'
    · split
      · exact .rfl'
      · rename_i g hg
        have hne : h ≠ g := by
          rintro rfl
          rw [due_of_lowestDue hg] at hdue
          cases hdue
        have hcheck := (setDue_leavesGroup hne false s).trans ((check_groupSteps g _).leavesGroup hne)
        exact hcheck.trans (ih _ (hcheck.record ▸ hdue))

theorem offerPlaces_exch (k n : Nat) (s : State) : (offerPlaces k n s).exch = s.exch := by
  induction k generalizing n s with
  | zero => rfl
  | succ k ih =>
    unfold offerPlaces
    split
    · rfl
    · split
      · rfl
      · exact (ih _ _).trans (check_groupSteps _ _).exch

theorem spaceNotice_leavesGroup (p : Port) (h : GroupNo) (s : State) : LeavesGroup h s (spaceNotice p s) := by
  unfold spaceNotice
  split
  · exact .of_eq rfl rfl rfl
  · exact .rfl'

theorem queueSpace_leavesGroup (h : GroupNo) (s : State) : LeavesGroup h s (queueSpace s) := by
  unfold queueSpace
  split
  · exact (spaceNotice_leavesGroup _ _ _).trans (spaceNotice_leavesGroup _ _ _)
  · exact .rfl'

theorem spaceNotice_exch (p : Port) (s : State) : (spaceNotice p s).exch = s.exch := by
  unfold spaceNotice
  split <;> rfl

theorem queueSpace_exch (s : State) : (queueSpace s).exch = s.exch := by
  unfold queueSpace
  split
  · rw [spaceNotice_exch, spaceNotice_exch]
  · rfl

theorem afterFreed_leavesGroup {h : GroupNo} (n : Nat) {s : State} (hdue : (s.group h).due = false) :
    LeavesGroup h s (afterFreed n s) := by
  unfold afterFreed
  split
  · exact .rfl'
  · exact (offerPlaces_leavesGroup 64 n hdue).trans (queueSpace_leavesGroup _ _)

theorem afterFreed_exch (n : Nat) (s : State) : (afterFreed n s).exch = s.exch := by
  unfold afterFreed
  split
  · rfl
  · rw [queueSpace_exch, offerPlaces_exch]

/-- R73, R75: a departure of the Dispatcher's own is that of an order, which moves, or of the fence at the head. -/
theorem advance1_cases {s t : State} (h : advance1 s = some t) :
    (∃ i o, s.disp.queue[i]? = some (.order o) ∧ t = afterFreed 1 (moveOrder o (setQueue (s.disp.queue.eraseIdx i) s)))
      ∨ ∃ p es, s.disp.queue = .fence p :: es ∧ t = afterFreed 1 (setQueue es s) := by
  unfold advance1 at h
  simp only at h
  split at h
  · rename_i i hi
    split at h
    · rename_i o ho
      exact .inl ⟨i, o, ho, (Option.some.inj h).symm⟩
    · cases h
  · split at h
    · rename_i p es hq
      split at h
      · cases h
      · exact .inr ⟨p, es, hq, (Option.some.inj h).symm⟩
    · cases h

theorem filter_eraseIdx_of_not {α : Type} {f : α → Bool} {l : List α} {i : Nat} {x : α} (hx : l[i]? = some x)
    (hf : f x = false) : (l.eraseIdx i).filter f = l.filter f := by
  induction l generalizing i with
  | nil => rfl
  | cons y ys ih =>
    cases i with
    | zero =>
      obtain rfl : y = x := by simpa using hx
      simp [hf]
    | succ i =>
      simp only [List.eraseIdx_cons_succ, List.filter_cons, ih (by simpa using hx)]

theorem advance1_leavesGroup {h : GroupNo} {s t : State} (hdue : (s.group h).due = false) (hadv : advance1 s = some t) :
    LeavesGroup h s t := by
  rcases advance1_cases hadv with ⟨i, o, ho, rfl⟩ | ⟨p, es, hq, rfl⟩
  · have hmove : LeavesGroup h s (moveOrder o (setQueue (s.disp.queue.eraseIdx i) s)) :=
      ⟨rfl, filter_eraseIdx_of_not ho rfl, rfl⟩
    exact hmove.trans (afterFreed_leavesGroup 1 hdue)
  · have hleave : LeavesGroup h s (setQueue es s) := ⟨rfl, by simp [hq, isAnnOf], rfl⟩
    exact hleave.trans (afterFreed_leavesGroup 1 hdue)

theorem advanceN_leavesGroup {h : GroupNo} (k : Nat) {s : State} (hdue : (s.group h).due = false) :
    LeavesGroup h s (advanceN k s) := by
  induction k generalizing s with
  | zero => exact .rfl'
  | succ k ih =>
    unfold advanceN
    split
    · rename_i t ht
      have hstep := advance1_leavesGroup hdue ht
      exact hstep.trans (ih (hstep.record ▸ hdue))
    · exact .rfl'

/-- R22: the answer to an open wait changes the open waits and the ports alone. -/
theorem settleWait_same (p : Port) (s : State) :
    (settleWait p s).groups = s.groups ∧ (settleWait p s).schedule = s.schedule ∧ (settleWait p s).disp = s.disp
      ∧ (settleWait p s).exch = s.exch ∧ (settleWait p s).tx = s.tx := by
  unfold settleWait
  split
  · split
    · exact ⟨rfl, rfl, rfl, rfl, rfl⟩
    · exact ⟨rfl, rfl, rfl, rfl, rfl⟩
  · exact ⟨rfl, rfl, rfl, rfl, rfl⟩

@[simp] theorem settleWaits_groups (s : State) : (settleWaits s).groups = s.groups :=
  (settleWait_same _ _).1.trans (settleWait_same _ _).1
@[simp] theorem settleWaits_schedule (s : State) : (settleWaits s).schedule = s.schedule :=
  (settleWait_same _ _).2.1.trans (settleWait_same _ _).2.1
@[simp] theorem settleWaits_disp (s : State) : (settleWaits s).disp = s.disp :=
  (settleWait_same _ _).2.2.1.trans (settleWait_same _ _).2.2.1
@[simp] theorem settleWaits_exch (s : State) : (settleWaits s).exch = s.exch :=
  (settleWait_same _ _).2.2.2.1.trans (settleWait_same _ _).2.2.2.1
@[simp] theorem settleWaits_tx (s : State) : (settleWaits s).tx = s.tx :=
  (settleWait_same _ _).2.2.2.2.trans (settleWait_same _ _).2.2.2.2

/-- The end of an event leaves a group that is not due alone. -/
theorem closeEvent_leavesGroup {h : GroupNo} (n : Nat) {s : State} (hdue : (s.group h).due = false) :
    LeavesGroup h s (closeEvent n s) := by
  have hfreed := afterFreed_leavesGroup n hdue
  have hadv : LeavesGroup h _ (advanceAll (afterFreed n s)) := advanceN_leavesGroup _ (hfreed.record ▸ hdue)
  exact (hfreed.trans hadv).trans (.of_eq (settleWaits_groups _) (congrArg _ (settleWaits_disp _)) (settleWaits_schedule _))

/-- With no departure due, the end of an event is the test of the open waits. -/
theorem closeEvent_zero_of_movesInv {s : State} (m : MovesInv s) : closeEvent 0 s = settleWaits s := by
  change settleWaits (advanceAll s) = _
  rw [advanceAll_idle m]

end Sys2Proof.Machine
end

section
/-! ## The tests of the Schedule List (R31, R32) -/

namespace Sys2Proof.Machine

/-! ### One test -/

/-- R32, R63: the pre-announcement of a schedule entry, as the Dispatcher enters it. -/
def preAnn (e : SchedEntry) (s : State) : Ann :=
  newAnn
    { group := e.group, content := e.setting, activation := some e.activation, origin := some e.origin
      repeats := s.conf.defaultRepeat } s.count

/-- The state once the pre-announcement of an entry is entered: it is the tail of the queue, and the entry's mark is QUEUED. -/
def preAnnounced (e : SchedEntry) (s : State) : State :=
  (setQueue (s.disp.queue ++ [.ann (preAnn e s)]) s).setSchedule (s.schedule.map fun f =>
    if f.group = e.group ∧ f.activation = e.activation then { f with mark := .queued } else f)

theorem not_hasAnn_iff (g : GroupNo) (s : State) : hasAnn g s = false ↔ ∀ q ∈ s.disp.queue, isAnnOf g q = false := by
  simp [hasAnn]

theorem baseOnTop_iff (h : Holding) : baseOnTop h = true ↔ ∃ b, h = .active b [] := by
  rcases h with _ | ⟨b, _ | ⟨o, os⟩⟩ <;> simp [baseOnTop]

/-- R32: the conditions of a pre-announcement. -/
theorem preAnnounceable_iff (e : SchedEntry) (s : State) :
    preAnnounceable e s = true ↔ e.mark = .none ∧ (∀ x ∈ s.schedule, x.group = e.group → e.activation ≤ x.activation)
      ∧ (∃ b, (s.group e.group).holding = .active b []) ∧ (∀ q ∈ s.disp.queue, isAnnOf e.group q = false)
      ∧ (s.group e.group).due = false ∧ (s.group e.group).next = none := by
  simp only [preAnnounceable, Bool.and_eq_true, decide_eq_true_eq, List.all_eq_true, Bool.or_eq_true, baseOnTop_iff,
    Bool.not_eq_true', not_hasAnn_iff, and_assoc, ← imp_iff_not_or, ne_eq]

/-- The conditions speak of the entry's own group alone, and of no mark but the entry's own. -/
theorem preAnnounceable_congr {e : SchedEntry} {s t : State} (h : LeavesGroup e.group s t) :
    preAnnounceable e t = preAnnounceable e s := by
  have hall : ∀ l : List SchedEntry, l.all (fun f => decide (f.group ≠ e.group) || decide (e.activation ≤ f.activation))
      = (l.filter fun f => decide (f.group = e.group)).all fun f => decide (e.activation ≤ f.activation) := fun l => by
    rw [List.all_filter]
    congr 1
    funext f
    by_cases hf : f.group = e.group <;> simp [hf]
  have hany : ∀ u : State, hasAnn e.group u = (u.disp.queue.filter (isAnnOf e.group)).any fun _ => true := fun u => by
    simp [hasAnn, List.any_filter]
  simp only [preAnnounceable, hall, hany, h.record, h.anns, h.entries]

/-- R63: a timed request for a group with no announcement entry is appended, or refused with all places held. -/
theorem request_timed_of_noAnn {r : AnnReq} {s : State} (htimed : r.activation ≠ none)
    (hnone : ∀ q ∈ s.disp.queue, isAnnOf r.group q = false) :
    request r s = if s.disp.queue.length < 16 then ⟨setQueue (s.disp.queue ++ [.ann (newAnn r s.count)]) s, true, 0⟩
      else ⟨s, false, 0⟩ := by
  have hflight : ∀ q ∈ s.disp.queue, isInFlight r.group q = false := fun q hq => by
    cases q with
    | ann a => simpa [isInFlight, isAnnOf] using fun hg => absurd hg (by simpa [isAnnOf] using hnone _ hq)
    | order o => rfl
    | fence p => rfl
  rw [request_of_noInFlight (fun h => htimed h.1) hflight]
  have hmerge := mergeIn_of_none (seg := s.disp.queue.drop (lastSegmentStart s.disp.queue)) fun q hq =>
    hnone q (List.mem_of_mem_drop hq)
  split
  · rename_i hroom
    exact place_append hmerge hroom
  · rename_i hfull
    rw [place_refused hmerge (Nat.not_lt.1 hfull), if_neg htimed]

theorem testEntry_of_not {e : SchedEntry} {s : State} (h : preAnnounceable e s = false) : testEntry e s = s := by
  simp [testEntry, h]

theorem testEntry_of_heldBack {e : SchedEntry} {s : State} (h : s.heldBack = true) : testEntry e s = s := by
  simp [testEntry, h]

/-- R32: an entry within its reach that meets the conditions is pre-announced where a place is free, and stays as it is else. -/
theorem testEntry_of_preAnnounceable {e : SchedEntry} {s : State} (hheld : s.heldBack = false)
    (hreach : withinReach s.conf s.count e.activation = true) (h : preAnnounceable e s = true) :
    testEntry e s = if s.disp.queue.length < 16 then preAnnounced e s else s := by
  obtain ⟨-, -, -, hnone, -, -⟩ := (preAnnounceable_iff e s).1 h
  have hreq := request_timed_of_noAnn (r := { group := e.group, content := e.setting, activation := some e.activation
                                              origin := some e.origin, repeats := s.conf.defaultRepeat })
    (Option.some_ne_none _) hnone
  simp only [testEntry, hheld, hreach, h, Bool.not_false, Bool.and_self, if_true, hreq]
  split <;> rfl

/-- R31, R32: all that one test can do. -/
theorem testEntry_cases (e : SchedEntry) (s : State) :
    testEntry e s = s
      ∨ testEntry e s = preAnnounced e s ∧ preAnnounceable e s = true ∧ s.disp.queue.length < 16 := by
  by_cases h : (!s.heldBack && withinReach s.conf s.count e.activation && preAnnounceable e s) = true
  · obtain ⟨⟨hheld, hreach⟩, hpre⟩ := by simpa only [Bool.and_eq_true, Bool.not_eq_true'] using h
    rw [testEntry_of_preAnnounceable hheld hreach hpre]
    split
    · rename_i hroom
      exact .inr ⟨rfl, hpre, hroom⟩
    · exact .inl rfl
  · exact .inl (if_neg h)

theorem opensReach_iff (c : Params) (count a : Count) :
    opensReach c count a = true ↔ a = count + min c.leadWindow 65535 + announceSlots c.broadcastGrade ∧ count < a :=
  Bool.and_eq_true_iff.trans (and_congr decide_eq_true_iff decide_eq_true_iff)

theorem withinReach_of_opensReach {c : Params} {count a : Count} (h : opensReach c count a = true) :
    withinReach c count a = true := by
  simp only [opensReach, Bool.and_eq_true, decide_eq_true_eq] at h
  simp [withinReach, h.2, ← h.1]

/-! ### Several tests -/

theorem preAnnounced_leavesGroup {h : GroupNo} {e : SchedEntry} (hne : h ≠ e.group) (s : State) :
    LeavesGroup h s (preAnnounced e s) := by
  refine ⟨rfl, ?_, filter_map_of_other hne (fun f => ?_) (fun f hf => if_neg fun x => hf x.1) _⟩
  · have ha : isAnnOf h (.ann (preAnn e s)) = false := decide_eq_false hne.symm
    simp [preAnnounced, ha]
  · split <;> rfl

/-- The state once the pre-announcements of several entries are entered, in list order. -/
theorem foldl_preAnnounced (es : List SchedEntry) (s : State) :
    es.foldl (fun s e => preAnnounced e s) s
      = (setQueue (s.disp.queue ++ es.map fun e => .ann (preAnn e s)) s).setSchedule (s.schedule.map fun f =>
          if ∃ e ∈ es, f.group = e.group ∧ f.activation = e.activation then { f with mark := .queued } else f) := by
  induction es generalizing s with
  | nil =>
    simp only [List.foldl_nil, List.map_nil, List.append_nil, List.not_mem_nil, false_and, exists_false, if_false,
      List.map_id']
    rfl
  | cons e es ih =>
    rw [List.foldl_cons, ih]
    have hqueue : (preAnnounced e s).disp.queue ++ es.map (fun x => Entry.ann (preAnn x (preAnnounced e s)))
        = s.disp.queue ++ (e :: es).map fun x => Entry.ann (preAnn x s) :=
      List.append_assoc s.disp.queue [Entry.ann (preAnn e s)] _
    have hmarks : ((preAnnounced e s).schedule.map fun f =>
          if ∃ x ∈ es, f.group = x.group ∧ f.activation = x.activation then { f with mark := Mark.queued } else f)
        = s.schedule.map fun f =>
          if ∃ x ∈ e :: es, f.group = x.group ∧ f.activation = x.activation then { f with mark := .queued } else f := by
      simp only [preAnnounced, State.setSchedule_schedule, List.map_map]
      refine List.map_congr_left fun f _ => ?_
      simp only [Function.comp_apply, List.exists_mem_cons_iff]
      by_cases he : f.group = e.group ∧ f.activation = e.activation <;> simp [he]
    rw [hqueue, hmarks]
    rfl

/-- R31: tests of entries of different groups: those that meet the conditions are pre-announced, in list order, into the places
that are free. -/
theorem foldl_testEntry (es : List SchedEntry) (s : State) (hheld : s.heldBack = false)
    (hreach : ∀ e ∈ es, withinReach s.conf s.count e.activation = true)
    (hgroups : es.Pairwise fun x y => x.group ≠ y.group) :
    es.foldl (fun s e => testEntry e s) s
      = ((es.filter fun e => preAnnounceable e s).take (16 - s.disp.queue.length)).foldl (fun s e => preAnnounced e s) s := by
  induction es generalizing s with
  | nil => simp
  | cons e es ih =>
    obtain ⟨hhead, htail⟩ := List.pairwise_cons.1 hgroups
    have hreach' : ∀ x ∈ es, withinReach s.conf s.count x.activation = true := fun x hx => hreach x (List.mem_cons_of_mem _ hx)
    rw [List.foldl_cons]
    cases hpre : preAnnounceable e s with
    | false => rw [testEntry_of_not hpre, ih s hheld hreach' htail, List.filter_cons_of_neg (by simp [hpre])]
    | true =>
      rw [testEntry_of_preAnnounceable hheld (hreach e List.mem_cons_self) hpre,
        List.filter_cons_of_pos (p := fun x => preAnnounceable x s) hpre]
      split
      · rename_i hroom
        have hsame : (es.filter fun x => preAnnounceable x (preAnnounced e s)) = es.filter fun x => preAnnounceable x s :=
          List.filter_congr fun x hx => preAnnounceable_congr (preAnnounced_leavesGroup (hhead x hx).symm s)
        have hlength : (preAnnounced e s).disp.queue.length = s.disp.queue.length + 1 := List.length_append
        have hplaces : 16 - s.disp.queue.length = (16 - (preAnnounced e s).disp.queue.length) + 1 := by omega
        rw [ih (preAnnounced e s) hheld hreach' htail, hsame, hplaces, List.take_succ_cons, List.foldl_cons]
      · rename_i hfull
        have hplaces : 16 - s.disp.queue.length = 0 := by omega
        rw [ih s hheld hreach' htail, hplaces, List.take_zero, List.take_zero]

/-- Some tests of entries enter the pre-announcements of some of them, in their order. -/
theorem foldl_testEntry_exists (es : List SchedEntry) (s : State) :
    ∃ entered : List SchedEntry, entered.Sublist es
      ∧ es.foldl (fun s e => testEntry e s) s = entered.foldl (fun s e => preAnnounced e s) s := by
  induction es generalizing s with
  | nil => exact ⟨[], .slnil, rfl⟩
  | cons e es ih =>
    rcases testEntry_cases e s with h | ⟨h, -, -⟩
    · obtain ⟨entered, hsub, heq⟩ := ih s
      exact ⟨entered, hsub.cons e, by rw [List.foldl_cons, h, heq]⟩
    · obtain ⟨entered, hsub, heq⟩ := ih (preAnnounced e s)
      exact ⟨e :: entered, hsub.cons_cons e, by rw [List.foldl_cons, h, heq, List.foldl_cons]⟩

/-- Announcement entries at the tail let no move and no departure of a fence become due. -/
theorem MovesInv.append_anns {s t : State} (m : MovesInv s) (hexch : t.exch = s.exch) {more : List Entry}
    (hq : t.disp.queue = s.disp.queue ++ more) (hmore : ∀ e ∈ more, isWork e = false) : MovesInv t := by
  refine ⟨fun h8 ahead o behind hsplit hlen => ?_, fun p behind hhead => ?_⟩
  · rw [hq, List.append_eq_append_iff] at hsplit
    rcases hsplit with ⟨c, -, hc⟩ | ⟨c, hc, hrest⟩
    · cases (hmore (.order o) (by simp [hc]) : true = false)
    · cases c with
      | nil =>
        cases (hmore (.order o) (by rw [List.nil_append] at hrest; simp [← hrest]) : true = false)
      | cons x xs =>
        obtain ⟨rfl, -⟩ := List.cons.inj hrest
        exact m.orders (hexch ▸ h8) ahead o xs hc hlen
  · rw [hexch]
    cases hs : s.disp.queue with
    | nil =>
      rw [hq, hs, List.nil_append] at hhead
      cases (hmore (.fence p) (by simp [hhead]) : true = false)
    | cons x xs =>
      rw [hq, hs, List.cons_append] at hhead
      obtain ⟨rfl, -⟩ := List.cons.inj hhead
      exact m.fence p xs hs

/-! ## The opening of a reach (R31) -/

theorem openReach_steps (s : State) : QueueSteps s (openReach s) := (testEntries_steps _ _).trans (closeEvent_steps _ _)

/-- With no test that acts, the opening of reaches is the end of an event. -/
theorem openReach_of_noTest {s : State} (h : s.heldBack = true
      ∨ ∀ x ∈ s.schedule, x.activation ≠ s.count + min s.conf.leadWindow 65535 + announceSlots s.conf.broadcastGrade) :
    openReach s = closeEvent 0 s := by
  have hnone : testEntries (fun e => opensReach s.conf s.count e.activation) s = s := by
    unfold testEntries
    rcases h with hheld | hnot
    · induction s.schedule.filter (fun e => opensReach s.conf s.count e.activation) with
      | nil => rfl
      | cons e es ih => rw [List.foldl_cons, testEntry_of_heldBack hheld, ih]
    · rw [List.filter_eq_nil_iff.2 fun e he hopen => hnot e he ((opensReach_iff _ _ _).1 hopen).1]
      rfl
  rw [openReach, hnone]

/-- Two entries of the list for one group and one count are the same. -/
theorem ScheduleInv.eq_of_same {s : State} (i : ScheduleInv s) {x y : SchedEntry} (hx : x ∈ s.schedule) (hy : y ∈ s.schedule)
    (hg : x.group = y.group) (ha : x.activation = y.activation) : x = y := by
  by_contra hne
  have hsymm : Std.Symm fun x y : SchedEntry => x.group = y.group → x.activation ≠ y.activation :=
    ⟨fun _ _ h hg => (h hg.symm).symm⟩
  exact i.unique.forall hx hy hne hg ha

/-- Entries whose reaches open at one count are of different groups (R27). -/
theorem ScheduleInv.opening_groups {s : State} (i : ScheduleInv s) :
    (s.schedule.filter fun e => opensReach s.conf s.count e.activation).Pairwise fun x y => x.group ≠ y.group := by
  refine (i.unique.filter _).imp_of_mem fun {x y} hx hy hxy hg => hxy hg ?_
  have hopen : ∀ z ∈ s.schedule.filter (fun e => opensReach s.conf s.count e.activation),
      z.activation = s.count + min s.conf.leadWindow 65535 + announceSlots s.conf.broadcastGrade := fun z hz =>
    ((opensReach_iff _ _ _).1 (List.mem_filter.1 hz).2).1
  rw [hopen x hx, hopen y hy]

theorem mem_preAnnounced_schedule {e : SchedEntry} {s : State} (h : e ∈ s.schedule) :
    { e with mark := .queued } ∈ (preAnnounced e s).schedule :=
  List.mem_map.2 ⟨e, h, if_pos ⟨rfl, rfl⟩⟩

theorem mem_preAnnounced_queue (e : SchedEntry) (s : State) :
    Entry.ann (preAnn e s) ∈ (preAnnounced e s).disp.queue := by
  simp [preAnnounced]

/-- R31, R32: the one entry whose reach opens is pre-announced. -/
theorem openReach_of_one {s : State} {before after : List SchedEntry} {e : SchedEntry}
    (hsplit : s.schedule = before ++ e :: after) (hopens : opensReach s.conf s.count e.activation = true)
    (hone : ∀ x ∈ before ++ after, x.activation ≠ e.activation) (hheld : s.heldBack = false)
    (hpre : preAnnounceable e s = true) (hroom : s.disp.queue.length < 16) :
    openReach s = closeEvent 0 (preAnnounced e s) := by
  have hnot : ∀ x ∈ before ++ after, ¬ opensReach s.conf s.count x.activation = true := fun x hx hopen =>
    hone x hx (((opensReach_iff _ _ _).1 hopen).1.trans ((opensReach_iff _ _ _).1 hopens).1.symm)
  have hsel : s.schedule.filter (fun x => opensReach s.conf s.count x.activation) = [e] := by
    rw [hsplit, List.filter_append, List.filter_cons_of_pos (p := fun x : SchedEntry => opensReach s.conf s.count x.activation) hopens,
      List.filter_eq_nil_iff.2 fun x hx => hnot x (List.mem_append_left _ hx),
      List.filter_eq_nil_iff.2 fun x hx => hnot x (List.mem_append_right _ hx), List.nil_append]
  rw [openReach, testEntries, hsel, List.foldl_cons, List.foldl_nil,
    testEntry_of_preAnnounceable hheld (withinReach_of_opensReach hopens) hpre, if_pos hroom]

/-- R31, R32: where several reaches open, the entries that meet the conditions are pre-announced in list order into the places
that are free, and no order or fence leaves. -/
theorem openReach_of_movesInv {s : State} (hheld : s.heldBack = false) (m : MovesInv s) (i : ScheduleInv s) :
    openReach s = settleWaits
      ((((s.schedule.filter fun e => opensReach s.conf s.count e.activation).filter fun e => preAnnounceable e s).take
        (16 - s.disp.queue.length)).foldl (fun s e => preAnnounced e s) s) := by
  rw [openReach, testEntries, foldl_testEntry _ s hheld
    (fun e he => withinReach_of_opensReach (List.mem_filter.1 he).2) i.opening_groups]
  refine closeEvent_zero_of_movesInv (m.append_anns ?_ (congrArg (·.disp.queue) (foldl_preAnnounced _ s)) fun x hx => ?_)
  · rw [foldl_preAnnounced]
    rfl
  · obtain ⟨y, -, rfl⟩ := List.mem_map.1 hx
    rfl

/-- Settles O35: a test enters the pre-announcement, and what follows in the step leaves the group, which is not due, alone. -/
theorem openingEntersThePreAnnouncement : Obligations.OpeningEntersThePreAnnouncement := by
  intro s
  have hkeeps : Keeps s (openReach s) := (openReach_steps s).frame
  refine ⟨fun before e after b hsplit hopens hlater hone hfirst hheld hmark hhold hnone hdue hnext hroom => ?_,
    fun fit hfit hheld m i entered hentered => ?_, fun hno => ?_⟩
  · have hmem : e ∈ s.schedule := by simp [hsplit]
    have hearliest : ∀ x ∈ s.schedule, x.group = e.group → e.activation ≤ x.activation := fun x hx hg => by
      rw [hsplit, List.mem_append, List.mem_cons] at hx
      rcases hx with hx | rfl | hx
      · exact hfirst x (List.mem_append_left _ hx) hg
      · exact le_refl _
      · exact hfirst x (List.mem_append_right _ hx) hg
    have hpre := (preAnnounceable_iff e s).2 ⟨hmark, hearliest, ⟨b, hhold⟩, hnone, hdue, hnext⟩
    have hopen := openReach_of_one hsplit ((opensReach_iff _ _ _).2 ⟨hopens, hlater⟩) hone hheld hpre hroom
    have hleaves : LeavesGroup e.group (preAnnounced e s) (openReach s) := hopen ▸ closeEvent_leavesGroup 0 hdue
    exact ⟨_, rfl, hkeeps, (hleaves.entry_mem_iff (e := { e with mark := .queued }) rfl).2 (mem_preAnnounced_schedule hmem),
      (hleaves.ann_mem_iff rfl).2 (mem_preAnnounced_queue e s)⟩
  · have hsel : s.schedule.filter fit
        = (s.schedule.filter fun e => opensReach s.conf s.count e.activation).filter fun e => preAnnounceable e s := by
      rw [List.filter_filter]
      refine List.filter_congr fun e _ => Bool.eq_iff_iff.2 ?_
      rw [hfit, Bool.and_eq_true, preAnnounceable_iff, opensReach_iff, and_comm (b := _ ∧ s.count < e.activation), and_assoc]
    have hopen := openReach_of_movesInv hheld m i
    rw [← hsel, ← hentered, foldl_preAnnounced] at hopen
    have hsub : ∀ e ∈ entered, e ∈ s.schedule := fun e he => by
      rw [hentered] at he
      exact (List.mem_filter.1 (List.mem_of_mem_take he)).1
    refine ⟨_, rfl, hkeeps, ?_, ?_, ?_, ?_⟩ <;> rw [hopen]
    · exact settleWaits_groups _
    · exact settleWaits_exch _
    · rw [settleWaits_schedule]
      refine List.map_congr_left fun f hf => ?_
      have hsame : (∃ e ∈ entered, f.group = e.group ∧ f.activation = e.activation) ↔ f ∈ entered :=
        ⟨fun ⟨e, he, hg, ha⟩ => i.eq_of_same hf (hsub e he) hg ha ▸ he, fun h => ⟨f, h, rfl, rfl⟩⟩
      simp only [hsame]
    · rw [settleWaits_disp]
      rfl
  · refine ⟨_, rfl, hkeeps, fun a ha hnew => ?_⟩
    rw [openReach_of_noTest hno] at ha
    by_contra hdue
    exact hnew ((closeEvent_leavesGroup 0 (by simpa using hdue)).ann_mem_iff rfl |>.1 ha)

end Sys2Proof.Machine
end

section
/-! ## What the Dispatcher's operations do to the notices, the exchanges and the Transmitter (R73, R113, R181) -/

namespace Sys2Proof.Machine

/-! ### Notices -/

/-- R181: an arrival behind which the queue sheds nothing joined the tail. -/
theorem arrive_of_not_shedding {c : PortCtl} {n : Count} {b : NoticeBody} (h : (c.arrive n b).shedding = false) :
    c.shedding = false ∧ (c.arrive n b).notices = c.notices ++ [{ count := n, body := b }] := by
  unfold PortCtl.arrive PortCtl.judge at h ⊢
  split at h
  · rename_i hshed
    exact absurd h (by simp [hshed])
  · rename_i hshed
    split at h
    · rename_i hroom
      simp [hshed, hroom]
    · simp at h

/-- R181: with room for an ordinary notice an arrival joins the tail. -/
theorem arrive_of_room {c : PortCtl} {n : Count} {b : NoticeBody} (hs : c.shedding = false) (hroom : c.notices.length < 15) :
    (c.arrive n b).notices = c.notices ++ [{ count := n, body := b }] := by
  simp [PortCtl.arrive, PortCtl.judge, hs, hroom]

theorem notify_port (p q : Port) (b : NoticeBody) (s : State) :
    (notify p b s).port q = if q = p then (s.port p).arrive s.count b else s.port q := updPort_port p q _ s

/-- A port's queue only grows: where it sheds nothing at `t` it shed nothing at `s`, and what it held stands at its head. -/
def NoticesGrow (p : Port) (s t : State) : Prop :=
  (t.port p).shedding = false
    → (s.port p).shedding = false ∧ ∃ more, (t.port p).notices = (s.port p).notices ++ more

theorem NoticesGrow.of_eq {p : Port} {s t : State} (hs : (t.port p).shedding = (s.port p).shedding)
    (hn : (t.port p).notices = (s.port p).notices) : NoticesGrow p s t :=
  fun h => ⟨hs ▸ h, [], by rw [hn, List.append_nil]⟩

theorem NoticesGrow.trans {p : Port} {s t u : State} (x : NoticesGrow p s t) (y : NoticesGrow p t u) : NoticesGrow p s u := by
  intro h
  obtain ⟨ht, more, hmore⟩ := y h
  obtain ⟨hs, more', hmore'⟩ := x ht
  exact ⟨hs, more' ++ more, by rw [hmore, hmore', List.append_assoc]⟩

theorem notify_noticesGrow (p q : Port) (b : NoticeBody) (s : State) : NoticesGrow q s (notify p b s) := by
  intro h
  rw [notify_port] at h ⊢
  split at h
  · rename_i hq
    subst hq
    obtain ⟨hs, hn⟩ := arrive_of_not_shedding h
    exact ⟨hs, _, by rw [if_pos rfl, hn]⟩
  · rename_i hq
    exact ⟨h, [], by rw [if_neg hq, List.append_nil]⟩

theorem answerWait_notices (p q : Port) (g : GroupNo) (m : Bool) (s : State) :
    ((answerWait p g m s).port q).notices = (s.port q).notices
      ∧ ((answerWait p g m s).port q).shedding = (s.port q).shedding := by
  have hport : (answerWait p g m s).port q = if q = p then _ else s.port q := updPort_port p q _ _
  rw [hport]
  split
  · rename_i hq
    subst hq
    exact ⟨rfl, rfl⟩
  · exact ⟨rfl, rfl⟩

theorem abandonFor_ports (g : GroupNo) (s : State) : (abandonFor g s).ports = s.ports := by
  unfold abandonFor
  split
  · split <;> rfl
  · rfl

theorem QueueStep.noticesGrow {s t : State} (h : QueueStep s t) (p : Port) : NoticesGrow p s t := by
  cases h with
  | notice q b _ => exact notify_noticesGrow q p b s
  | wait q w m _ _ => exact .of_eq (answerWait_notices q p _ m s).2 (answerWait_notices q p _ m s).1
  | abandon g _ => exact .of_eq (by rw [State.port, abandonFor_ports]; rfl) (by rw [State.port, abandonFor_ports]; rfl)
  | queue _ _ _ => exact .of_eq rfl rfl
  | record _ _ _ _ _ => exact .of_eq rfl rfl
  | marks _ _ _ => exact .of_eq rfl rfl
  | space _ _ => exact .of_eq rfl rfl
  | exchanges _ _ _ => exact .of_eq rfl rfl

/-- A chain of the Dispatcher's small steps takes no notice out of a queue. -/
theorem QueueSteps.noticesGrow {s t : State} (h : QueueSteps s t) (p : Port) : NoticesGrow p s t :=
  QueueSteps.keeps (P := NoticesGrow p s) (fun _ _ hstep hs => hs.trans (hstep.noticesGrow p)) h (.of_eq rfl rfl)

theorem settleWait_notices (p q : Port) (s : State) :
    ((settleWait p s).port q).notices = (s.port q).notices ∧ ((settleWait p s).port q).shedding = (s.port q).shedding := by
  unfold settleWait
  split
  · split
    · exact answerWait_notices _ _ _ _ _
    · exact ⟨rfl, rfl⟩
  · exact ⟨rfl, rfl⟩

theorem settleWaits_notices (q : Port) (s : State) : ((settleWaits s).port q).notices = (s.port q).notices :=
  (settleWait_notices _ q _).1.trans (settleWait_notices _ q _).1

theorem settleWaits_shedding (q : Port) (s : State) : ((settleWaits s).port q).shedding = (s.port q).shedding :=
  (settleWait_notices _ q _).2.trans (settleWait_notices _ q _).2

/-! ### The Transmitter -/

/-- R113, R118: with a station unit number, a Transmitter that is IDLE stays so. -/
theorem QueueSteps.tx_idle {s t : State} (h : QueueSteps s t) (hstation : s.conf.station ≠ 0) (hidle : s.tx.state = .idle) :
    t.tx.state = .idle := by
  refine (QueueSteps.keeps (P := fun u => u.conf.station ≠ 0 ∧ u.tx.state = .idle) ?_ h ⟨hstation, hidle⟩).2
  rintro u v hstep ⟨hc, hi⟩
  refine ⟨hstep.frame.conf ▸ hc, ?_⟩
  cases hstep with
  | abandon g _ =>
    unfold abandonFor
    split
    · split
      · exact if_neg hc
      · exact hi
    · exact hi
  | _ => exact hi

/-! ### The exchanges -/

/-- R73, R138: exchanges that orders moved into join the tail of the table and of the ready order, READY and with no attempt;
those that stood there stay. -/
def ExchGrows (s t : State) : Prop :=
  (∃ more, t.exch.table = s.exch.table ++ more ∧ ∀ x ∈ more, x.state = .ready ∧ x.attempts = 0)
    ∧ ∃ moved, t.exch.ready = s.exch.ready ++ moved

theorem ExchGrows.of_eq {s t : State} (h : t.exch = s.exch) : ExchGrows s t :=
  ⟨⟨[], by simp [h]⟩, [], by simp [h]⟩

theorem ExchGrows.trans {s t u : State} (x : ExchGrows s t) (y : ExchGrows t u) : ExchGrows s u := by
  obtain ⟨⟨more, hm, hready⟩, moved, hv⟩ := x
  obtain ⟨⟨more', hm', hready'⟩, moved', hv'⟩ := y
  refine ⟨⟨more ++ more', by rw [hm', hm, List.append_assoc], fun z hz => ?_⟩, moved ++ moved', by
    rw [hv', hv, List.append_assoc]⟩
  exact (List.mem_append.1 hz).elim (hready z) (hready' z)

theorem moveOrder_exchGrows (o : OrderEntry) (s : State) : ExchGrows s (moveOrder o s) := by
  refine ⟨⟨[_], rfl, fun x hx => ?_⟩, [_], rfl⟩
  obtain rfl := List.mem_singleton.1 hx
  exact ⟨rfl, rfl⟩

theorem advanceN_exchGrows (k : Nat) (s : State) : ExchGrows s (advanceN k s) := by
  induction k generalizing s with
  | zero => exact .of_eq rfl
  | succ k ih =>
    unfold advanceN
    split
    · rename_i t ht
      refine ExchGrows.trans ?_ (ih t)
      rcases advance1_cases ht with ⟨i, o, -, rfl⟩ | ⟨p, es, -, rfl⟩
      · have hmove : ExchGrows s (moveOrder o (setQueue (s.disp.queue.eraseIdx i) s)) :=
          moveOrder_exchGrows o (setQueue (s.disp.queue.eraseIdx i) s)
        exact hmove.trans (.of_eq (afterFreed_exch _ _))
      · exact .of_eq (afterFreed_exch _ _)
    · exact .of_eq rfl

/-- The end of an event ends no exchange. -/
theorem closeEvent_exchGrows (n : Nat) (s : State) : ExchGrows s (closeEvent n s) :=
  ((ExchGrows.of_eq (afterFreed_exch n s)).trans (advanceN_exchGrows _ _)).trans (.of_eq (settleWaits_exch _))

/-- The moves that are due depend on the queue, the number of exchanges and their fence marks. -/
theorem MovesInv.of_table {s t : State} (m : MovesInv s) (hq : t.disp.queue = s.disp.queue)
    (hlen : t.exch.table.length = s.exch.table.length)
    (hmark : (∃ x ∈ s.exch.table, x.fenceMark = true) → ∃ x ∈ t.exch.table, x.fenceMark = true) : MovesInv t :=
  ⟨fun h8 => by rw [hq]; exact m.orders (hlen ▸ h8), fun p behind h => hmark (m.fence p behind (hq ▸ h))⟩

theorem MovesInv.of_eq {s t : State} (m : MovesInv s) (hq : t.disp.queue = s.disp.queue) (hx : t.exch = s.exch) : MovesInv t :=
  m.of_table hq (by rw [hx]) (by rw [hx]; exact id)

/-- A queue of announcement entries alone has nothing to move. -/
theorem movesInv_of_noWork {s : State} (h : ∀ e ∈ s.disp.queue, isWork e = false) : MovesInv s := by
  refine ⟨fun _ ahead o behind hq _ => ?_, fun p behind hq => ?_⟩
  · cases (h (.order o) (by simp [hq]) : true = false)
  · cases (h (.fence p) (by simp [hq]) : true = false)

end Sys2Proof.Machine
end

section
/-! ## A counted crossing (R50): the line, the tests of the Schedule List, the end of the event, the notices -/

namespace Sys2Proof.Machine

/-! ### The tests at a crossing (R31) -/

/-- What tests of entries change: announcement entries at the tail of the queue, and the marks. -/
theorem testEntries_appends (sel : SchedEntry → Bool) (s : State) :
    ∃ (entered : List SchedEntry) (marked : List SchedEntry),
      testEntries sel s = (setQueue (s.disp.queue ++ entered.map fun e => .ann (preAnn e s)) s).setSchedule marked := by
  obtain ⟨entered, -, h⟩ := foldl_testEntry_exists (s.schedule.filter sel) s
  exact ⟨entered, _, h.trans (foldl_preAnnounced entered s)⟩

theorem testOpened_appends (s : State) :
    ∃ (entered : List SchedEntry) (marked : List SchedEntry),
      testOpened s = (setQueue (s.disp.queue ++ entered.map fun e => .ann (preAnn e s)) s).setSchedule marked :=
  testEntries_appends _ s

/-- Tests of entries that do not meet the conditions, or are of another group, leave a group alone. -/
theorem foldl_testEntry_leavesGroup {h : GroupNo} (es : List SchedEntry) {s : State}
    (hnot : ∀ x ∈ es, x.group = h → preAnnounceable x s = false) :
    LeavesGroup h s (es.foldl (fun s e => testEntry e s) s) := by
  induction es generalizing s with
  | nil => exact .rfl'
  | cons e es ih =>
    have hstep : LeavesGroup h s (testEntry e s) := by
      rcases testEntry_cases e s with heq | ⟨heq, hpre, -⟩ <;> rw [heq]
      · exact .rfl'
      · refine preAnnounced_leavesGroup (fun hg => ?_) s
        rw [hnot e List.mem_cons_self hg.symm] at hpre
        cases hpre
    refine hstep.trans (ih fun x hx hg => ?_)
    subst hg
    rw [preAnnounceable_congr hstep]
    exact hnot x (List.mem_cons_of_mem _ hx) rfl

/-- R31, R32: where places are free for all, the earliest entry of its group that meets the conditions is pre-announced, whatever
entries are tested before and behind it. -/
theorem testEntries_preAnnounces {sel : SchedEntry → Bool} {s : State} {e : SchedEntry} (he : e ∈ s.schedule)
    (hsel : sel e = true) (hheld : s.heldBack = false) (hreach : withinReach s.conf s.count e.activation = true)
    (hpre : preAnnounceable e s = true)
    (hearliest : ∀ x ∈ s.schedule, x.group = e.group → x ≠ e → e.activation < x.activation)
    (hroom : s.disp.queue.length + s.schedule.length ≤ 16) :
    ∃ u, LeavesGroup e.group s u ∧ preAnn e u = preAnn e s ∧ LeavesGroup e.group (preAnnounced e u) (testEntries sel s) := by
  obtain ⟨ahead, behind, hsplit, hfirst⟩ := List.eq_append_cons_of_mem (List.mem_filter.2 ⟨he, hsel⟩)
  have hahead : ∀ x ∈ ahead, x.group = e.group → preAnnounceable x s = false := fun x hx hg => by
    have hxs : x ∈ s.schedule := (List.mem_filter.1 (hsplit ▸ List.mem_append_left _ hx)).1
    have hlater := hearliest x hxs hg (fun hxe => hfirst (hxe ▸ hx))
    rw [← Bool.not_eq_true, preAnnounceable_iff]
    rintro ⟨-, hle, -⟩
    exact absurd (hle e he hg.symm) (Nat.not_le.2 hlater)
  have hleaves := foldl_testEntry_leavesGroup ahead hahead
  obtain ⟨entered, hsub, hfold⟩ := foldl_testEntry_exists ahead s
  rw [foldl_preAnnounced] at hfold
  have htest : testEntry e (ahead.foldl (fun s e => testEntry e s) s)
      = preAnnounced e (ahead.foldl (fun s e => testEntry e s) s) := by
    rw [testEntry_of_preAnnounceable (by rw [hfold]; exact hheld) (by rw [hfold]; exact hreach)
      ((preAnnounceable_congr hleaves).trans hpre), if_pos]
    have hlen : ahead.length < s.schedule.length := by
      have hle := List.length_filter_le sel s.schedule
      rw [hsplit, List.length_append, List.length_cons] at hle
      omega
    have hentered := hsub.length_le
    rw [hfold]
    simp only [State.setSchedule_disp, setQueue_queue, List.length_append, List.length_map]
    omega
  refine ⟨_, hleaves, by rw [hfold]; rfl, ?_⟩
  rw [testEntries, hsplit, List.foldl_append, List.foldl_cons, htest]
  refine foldl_testEntry_leavesGroup behind fun x _ hg => ?_
  rw [← Bool.not_eq_true, preAnnounceable_iff]
  rintro ⟨-, -, -, hnone, -⟩
  have hno := hnone _ (mem_preAnnounced_queue e _)
  exact of_decide_eq_false hno hg.symm

/-- R31, R32: so it is at a crossing, where the reach opened at an earlier one, and the end of the event leaves it so. -/
theorem closeTests_preAnnounces {v t : State} {e : SchedEntry} (he : e ∈ v.schedule) (hheld : v.heldBack = false)
    (hlater : v.count < e.activation)
    (hreach : e.activation < v.count + min v.conf.leadWindow 65535 + announceSlots v.conf.broadcastGrade)
    (hpre : preAnnounceable e v = true)
    (hearliest : ∀ x ∈ v.schedule, x.group = e.group → x ≠ e → e.activation < x.activation)
    (hroom : v.disp.queue.length + v.schedule.length ≤ 16) (hend : LeavesGroup e.group (closeEvent 0 (testOpened v)) t) :
    { e with mark := .queued } ∈ t.schedule ∧ Entry.ann (preAnn e v) ∈ t.disp.queue := by
  have hwithin : withinReach v.conf v.count e.activation = true :=
    Bool.and_eq_true_iff.2 ⟨decide_eq_true hreach.le, decide_eq_true hlater⟩
  have hopened : (!opensReach v.conf v.count e.activation) = true := by
    rw [Bool.not_eq_true', ← Bool.not_eq_true, opensReach_iff]
    exact fun hopen => absurd hopen.1 hreach.ne
  obtain ⟨u, hvu, hsame, hut⟩ := testEntries_preAnnounces (sel := fun x => !opensReach v.conf v.count x.activation)
    he hopened hheld hwithin hpre hearliest hroom
  obtain ⟨-, -, -, -, hdue, -⟩ := (preAnnounceable_iff e v).1 hpre
  have hdue' : ((testOpened v).group e.group).due = false :=
    (congrArg (·.due) (hut.record.trans hvu.record)).trans hdue
  have hleaves : LeavesGroup e.group (preAnnounced e u) t := (hut.trans (closeEvent_leavesGroup 0 hdue')).trans hend
  have hmem : e ∈ u.schedule := (hvu.entry_mem_iff rfl).2 he
  exact ⟨(hleaves.entry_mem_iff (e := { e with mark := .queued }) rfl).2 (mem_preAnnounced_schedule hmem),
    (hleaves.ann_mem_iff rfl).2 (hsame ▸ mem_preAnnounced_queue e u)⟩

/-! ### The line at a crossing (R108, R113, R117) -/

/-- The line's part of a counted crossing: what comes before the tests of the Schedule List. -/
def lineCrossing (s : State) : State := markBusy (txCrossing (clearAccepted (markQuiet (release s))))

theorem crossingEvent_eq (s : State) : crossingEvent s = closeEvent 0 (testOpened (lineCrossing s)) := rfl

/-- What the end of a frame on the line leaves alone. -/
structure LineOnly (s t : State) : Prop where
  time : t.time = s.time
  groups : t.groups = s.groups
  schedule : t.schedule = s.schedule
  queue : t.disp.queue = s.disp.queue
  conf : t.conf = s.conf
  routes : t.routes = s.routes
  heldBack : t.heldBack = s.heldBack
  phases : t.rx.phases = s.rx.phases
  again : t.rx.again = s.rx.again

theorem LineOnly.rfl' {s : State} : LineOnly s s := ⟨rfl, rfl, rfl, rfl, rfl, rfl, rfl, rfl, rfl⟩

theorem LineOnly.trans {s t u : State} (x : LineOnly s t) (y : LineOnly t u) : LineOnly s u :=
  ⟨y.time.trans x.time, y.groups.trans x.groups, y.schedule.trans x.schedule, y.queue.trans x.queue, y.conf.trans x.conf,
    y.routes.trans x.routes, y.heldBack.trans x.heldBack, y.phases.trans x.phases, y.again.trans x.again⟩

theorem LineOnly.carrierHeard {s t : State} (x : LineOnly s t) : carrierHeard t = carrierHeard s := by
  simp only [Machine.carrierHeard, phaseHeard, x.phases, x.again]

/-- R114, R142: the exchange of an abandoned frame is the only part of the state it changes, but for a notice. -/
theorem exchAbandoned_lineOnly (t : Tag) (s : State) :
    LineOnly s (exchAbandoned t s) ∧ (exchAbandoned t s).arb = s.arb ∧ (exchAbandoned t s).tx = s.tx
      ∧ (exchAbandoned t s).disp = s.disp := by
  unfold exchAbandoned
  split
  · split
    · exact ⟨⟨rfl, rfl, rfl, rfl, rfl, rfl, rfl, rfl, rfl⟩, rfl, rfl, rfl⟩
    · exact ⟨⟨rfl, rfl, rfl, rfl, rfl, rfl, rfl, rfl, rfl⟩, rfl, rfl, rfl⟩
  · exact ⟨.rfl', rfl, rfl, rfl⟩

theorem reportAbandonment_lineOnly (h : Holder) (s : State) :
    LineOnly s (reportAbandonment h s) ∧ (reportAbandonment h s).arb = s.arb ∧ (reportAbandonment h s).tx = s.tx := by
  cases h with
  | exchange t =>
    obtain ⟨hline, harb, htx, -⟩ := exchAbandoned_lineOnly t s
    exact ⟨hline, harb, htx⟩
  | none => exact ⟨.rfl', rfl, rfl⟩
  | receipt u n => exact ⟨⟨rfl, rfl, rfl, rfl, rfl, rfl, rfl, rfl, rfl⟩, rfl, rfl⟩
  | announcement g => exact ⟨⟨rfl, rfl, rfl, rfl, rfl, rfl, rfl, rfl, rfl⟩, rfl, rfl⟩

theorem reportAbandonment_noticesGrow (h : Holder) (p : Port) (s : State) : NoticesGrow p s (reportAbandonment h s) := by
  cases h with
  | exchange t => exact (exchAbandoned_steps t s).noticesGrow p
  | none => exact .of_eq rfl rfl
  | receipt u n => exact .of_eq rfl rfl
  | announcement g => exact .of_eq rfl rfl

/-- R117: a Transmitter as a crossing that does not carry PRESENT leaves it. -/
def dormantTx : Transmitter := { state := .dormant, frame := none, backoffEnd := none }

/-- R113: the Transmitter at a crossing that carries PRESENT. -/
def presentTx (s : State) : Transmitter :=
  if s.tx.state = .dormant ∧ s.conf.station ≠ 0 then { s.tx with state := .idle } else s.tx

theorem txCrossing_present {s : State} (h : s.time.state = .present) : txCrossing s = s.setTx (presentTx s) := by
  rw [txCrossing, if_pos h, presentTx]
  split <;> rfl

theorem txCrossing_idle {s : State} (h : s.time.state ≠ .present) (hs : s.tx.state ≠ .sending) :
    txCrossing s = s.setTx dormantTx := by
  rw [txCrossing, if_neg h]
  simp only [if_neg hs]
  rfl

theorem txCrossing_sending {s : State} (h : s.time.state ≠ .present) (hs : s.tx.state = .sending) :
    txCrossing s = (abandonFrame s).setTx dormantTx := by
  rw [txCrossing, if_neg h]
  simp only [if_pos hs]
  rfl

/-- The state in which the holder of an abandoned frame takes the report (R114). -/
def frameDropped (s : State) : State := (s.setTx { s.tx with frame := none }).setArb { s.arb with holder := .none }

theorem abandonFrame_eq (s : State) : abandonFrame s = reportAbandonment s.arb.holder (frameDropped s) := rfl

theorem txCrossing_lineOnly (s : State) : LineOnly s (txCrossing s) := by
  by_cases hp : s.time.state = .present
  · rw [txCrossing_present hp]
    exact ⟨rfl, rfl, rfl, rfl, rfl, rfl, rfl, rfl, rfl⟩
  · by_cases hs : s.tx.state = .sending
    · rw [txCrossing_sending hp hs, abandonFrame_eq]
      have hdropped : LineOnly s (frameDropped s) := ⟨rfl, rfl, rfl, rfl, rfl, rfl, rfl, rfl, rfl⟩
      have hline := hdropped.trans (reportAbandonment_lineOnly s.arb.holder (frameDropped s)).1
      exact ⟨hline.time, hline.groups, hline.schedule, hline.queue, hline.conf, hline.routes, hline.heldBack, hline.phases,
        hline.again⟩
    · rw [txCrossing_idle hp hs]
      exact ⟨rfl, rfl, rfl, rfl, rfl, rfl, rfl, rfl, rfl⟩

theorem txCrossing_tx (s : State) : (txCrossing s).tx = if s.time.state = .present then presentTx s else dormantTx := by
  by_cases hp : s.time.state = .present
  · rw [txCrossing_present hp, if_pos hp]
    rfl
  · rw [if_neg hp]
    by_cases hs : s.tx.state = .sending
    · rw [txCrossing_sending hp hs]
      rfl
    · rw [txCrossing_idle hp hs]
      rfl

/-- The arbiter's marks are not the Transmitter's; the holder of an abandoned frame is none. -/
theorem txCrossing_arb (s : State) : (txCrossing s).arb
    = if s.time.state ≠ .present ∧ s.tx.state = .sending then { s.arb with holder := .none } else s.arb := by
  by_cases hp : s.time.state = .present
  · rw [txCrossing_present hp, if_neg (by simp [hp])]
    rfl
  · by_cases hs : s.tx.state = .sending
    · rw [txCrossing_sending hp hs, abandonFrame_eq, if_pos ⟨hp, hs⟩]
      exact (reportAbandonment_lineOnly _ _).2.1
    · rw [txCrossing_idle hp hs, if_neg (by simp [hs])]
      rfl

theorem txCrossing_noticesGrow (p : Port) (s : State) : NoticesGrow p s (txCrossing s) := by
  by_cases hp : s.time.state = .present
  · rw [txCrossing_present hp]
    exact .of_eq rfl rfl
  · by_cases hs : s.tx.state = .sending
    · rw [txCrossing_sending hp hs]
      have hgrow := reportAbandonment_noticesGrow s.arb.holder p (frameDropped s)
      exact hgrow
    · rw [txCrossing_idle hp hs]
      exact .of_eq rfl rfl

/-- The state in which the Transmitter takes the crossing. -/
def beforeTx (s : State) : State := clearAccepted (markQuiet (release s))

theorem lineCrossing_eq (s : State) : lineCrossing s = markBusy (txCrossing (beforeTx s)) := rfl

theorem lineCrossing_time (s : State) : (lineCrossing s).time = s.time := (txCrossing_lineOnly (beforeTx s)).time
theorem lineCrossing_groups (s : State) : (lineCrossing s).groups = s.groups := (txCrossing_lineOnly (beforeTx s)).groups
theorem lineCrossing_schedule (s : State) : (lineCrossing s).schedule = s.schedule := (txCrossing_lineOnly (beforeTx s)).schedule
theorem lineCrossing_queue (s : State) : (lineCrossing s).disp.queue = s.disp.queue := (txCrossing_lineOnly (beforeTx s)).queue
theorem lineCrossing_conf (s : State) : (lineCrossing s).conf = s.conf := (txCrossing_lineOnly (beforeTx s)).conf
theorem lineCrossing_routes (s : State) : (lineCrossing s).routes = s.routes := (txCrossing_lineOnly (beforeTx s)).routes
theorem lineCrossing_heldBack (s : State) : (lineCrossing s).heldBack = false := (txCrossing_lineOnly (beforeTx s)).heldBack

theorem lineCrossing_tx (s : State) : (lineCrossing s).tx = if s.time.state = .present then presentTx s else dormantTx :=
  txCrossing_tx (beforeTx s)

theorem lineCrossing_noticesGrow (p : Port) (s : State) : NoticesGrow p s (lineCrossing s) :=
  txCrossing_noticesGrow p (beforeTx s)

theorem lineCrossing_quiet (s : State) : (lineCrossing s).arb.quiet = !s.arb.busy := by
  change (txCrossing (beforeTx s)).arb.quiet = _
  rw [txCrossing_arb]
  split <;> rfl

theorem lineCrossing_claimOpen (s : State) : (lineCrossing s).arb.claimOpen = true := by
  change (txCrossing (beforeTx s)).arb.claimOpen = _
  rw [txCrossing_arb]
  split <;> rfl

theorem ownCarrier_iff (s : State) :
    ownCarrier s = true ↔ s.tx.state = .sending ∧ ∃ f, s.tx.frame = some f ∧ s.count < f.endCount := by
  unfold ownCarrier
  cases s.tx.state <;> cases s.tx.frame <;> simp

theorem presentTx_sending_iff (s : State) :
    (presentTx s).state = .sending ∧ (∃ f, (presentTx s).frame = some f ∧ s.count < f.endCount)
      ↔ s.tx.state = .sending ∧ ∃ f, s.tx.frame = some f ∧ s.count < f.endCount := by
  unfold presentTx
  split
  · rename_i h
    simp [h.1]
  · rfl

/-- R108: the slot that begins is busy where a carrier is heard, or the part's own is still sent. -/
theorem lineCrossing_busy (s : State) : (lineCrossing s).arb.busy = true ↔ carrierHeard s = true
    ∨ s.time.state = .present ∧ s.tx.state = .sending ∧ ∃ f, s.tx.frame = some f ∧ s.count < f.endCount := by
  have hline := txCrossing_lineOnly (beforeTx s)
  have hbusy : (lineCrossing s).arb.busy = (ownCarrier (txCrossing (beforeTx s)) || carrierHeard (beforeTx s)) := by
    rw [← hline.carrierHeard]
    rfl
  have hcount : (txCrossing (beforeTx s)).count = s.count := congrArg (·.count) hline.time
  rw [hbusy, Bool.or_eq_true, ownCarrier_iff, hcount, txCrossing_tx, or_comm]
  refine or_congr Iff.rfl ?_
  by_cases hp : s.time.state = .present
  · rw [if_pos (show (beforeTx s).time.state = .present from hp)]
    exact (presentTx_sending_iff s).trans (by simp [hp])
  · rw [if_neg (show (beforeTx s).time.state ≠ .present from hp)]
    simp [hp, dormantTx]

/-- With no frame on the line, or in PRESENT, nothing is abandoned: exchanges and ports stand as they stood. -/
theorem lineCrossing_noAbandonment {s : State} (h : s.time.state = .present ∨ s.tx.state ≠ .sending) :
    (lineCrossing s).exch = s.exch ∧ (lineCrossing s).ports = s.ports := by
  rw [lineCrossing_eq]
  by_cases hp : s.time.state = .present
  · rw [txCrossing_present (s := beforeTx s) hp]
    exact ⟨rfl, rfl⟩
  · rw [txCrossing_idle (s := beforeTx s) hp (h.resolve_left hp)]
    exact ⟨rfl, rfl⟩

/-- R117: with a frame on the line and no PRESENT, its holder takes the report of the abandonment. -/
theorem lineCrossing_abandons {s : State} (h : s.time.state ≠ .present) (hs : s.tx.state = .sending) :
    lineCrossing s
      = markBusy ((reportAbandonment s.arb.holder (frameDropped (beforeTx s))).setTx dormantTx) := by
  rw [lineCrossing_eq, txCrossing_sending (s := beforeTx s) h hs]
  rfl

section
variable {s : State} (hholder : s.arb.holder = .none ↔ s.tx.state ≠ .sending)
  (hsending : ∀ t, s.disp.sending = some t → s.arb.holder = .announcement t.group)
include hholder hsending

/-- R81, R117: a crossing that does not carry PRESENT leaves no holder and no transmission in progress. -/
theorem lineCrossing_free (h : s.time.state ≠ .present) :
    (lineCrossing s).arb.holder = .none ∧ (lineCrossing s).disp.sending = none := by
  have hnone : (∀ g, s.arb.holder ≠ .announcement g) → s.disp.sending = none := fun hne =>
    Option.eq_none_iff_forall_ne_some.2 fun t ht => hne _ (hsending t ht)
  by_cases hs : s.tx.state = .sending
  · rw [lineCrossing_abandons h hs]
    refine ⟨congrArg (·.holder) (reportAbandonment_lineOnly _ (frameDropped (beforeTx s))).2.1, ?_⟩
    change (reportAbandonment s.arb.holder (frameDropped (beforeTx s))).disp.sending = none
    cases hh : s.arb.holder with
    | none => exact hnone (by simp [hh])
    | receipt u n => exact hnone (by simp [hh])
    | exchange t =>
      have hdisp : (exchAbandoned t (frameDropped (beforeTx s))).disp = (frameDropped (beforeTx s)).disp :=
        (exchAbandoned_lineOnly t _).2.2.2
      exact (congrArg (·.sending) hdisp).trans (hnone (by simp [hh]))
    | announcement g => rfl
  · rw [lineCrossing_eq, txCrossing_idle (s := beforeTx s) h hs]
    exact ⟨hholder.2 hs, hnone (by simp [hholder.2 hs])⟩

/-- R113, R117: so the line's users agree that nothing is on the line. -/
theorem lineCrossing_lineInv (h : s.time.state ≠ .present) : LineInv (lineCrossing s) := by
  have htx : (lineCrossing s).tx = dormantTx := by rw [lineCrossing_tx, if_neg h]
  obtain ⟨hfree, hnone⟩ := lineCrossing_free hholder hsending h
  exact
    { frame := by simp [htx, dormantTx]
      backoff := by simp [htx, dormantTx]
      holder := by simp [htx, dormantTx, hfree]
      sending := fun t ht => by cases hnone.symm.trans ht
      announcing := fun g hg => by cases hfree.symm.trans hg
      mains := fun _ => by rw [htx]; rfl
      station := fun _ => .inl (by rw [htx]; rfl) }

end

/-! ### The whole of a counted crossing (R50) -/

theorem mainsNotices_of_ne {left : MainsState} {s : State} (h : left ≠ s.time.state) :
    mainsNotices left s
      = notify .B (.mainsChange left s.time.state s.count) (notify .A (.mainsChange left s.time.state s.count) s) := if_neg h

theorem mainsNotices_steps (left : MainsState) (s : State) : QueueSteps s (mainsNotices left s) := by
  unfold mainsNotices
  split
  · exact QueueSteps.rfl'
  · exact (QueueStep.notice _ _ s).one.trans (QueueStep.notice _ _ _).one

/-- R49: the notices of a change of state change the ports alone. -/
theorem mainsNotices_same (left : MainsState) (s : State) :
    (mainsNotices left s).groups = s.groups ∧ (mainsNotices left s).schedule = s.schedule
      ∧ (mainsNotices left s).disp = s.disp ∧ (mainsNotices left s).exch = s.exch ∧ (mainsNotices left s).tx = s.tx := by
  unfold mainsNotices
  split <;> exact ⟨rfl, rfl, rfl, rfl, rfl⟩

/-- R49: each port is told once of a change of state. -/
theorem mainsNotices_port {left : MainsState} {s : State} (h : left ≠ s.time.state) (p : Port) :
    (mainsNotices left s).port p = (s.port p).arrive s.count (.mainsChange left s.time.state s.count) := by
  rw [mainsNotices_of_ne h]
  cases p <;> rfl

theorem crossingEvent_steps (s : State) : QueueSteps (lineCrossing s) (crossingEvent s) :=
  (testEntries_steps _ _).trans (closeEvent_steps _ _)

theorem countCrossing_steps (t : TimeBase) (s : State) :
    QueueSteps (lineCrossing (s.setTime t)) (countCrossing t s) :=
  (crossingEvent_steps _).trans (mainsNotices_steps _ _)

section
variable (t : TimeBase) (s : State)

theorem countCrossing_time : (countCrossing t s).time = t :=
  (countCrossing_steps t s).frame.time.trans (lineCrossing_time _)

theorem countCrossing_count : (countCrossing t s).count = t.count := congrArg (·.count) (countCrossing_time t s)

theorem countCrossing_conf : (countCrossing t s).conf = s.conf :=
  (countCrossing_steps t s).frame.conf.trans (lineCrossing_conf _)

theorem countCrossing_routes : (countCrossing t s).routes = s.routes :=
  (countCrossing_steps t s).frame.routes.trans (lineCrossing_routes _)

theorem countCrossing_heldBack : (countCrossing t s).heldBack = false :=
  (countCrossing_steps t s).frame.heldBack.trans (lineCrossing_heldBack _)

theorem countCrossing_quiet : (countCrossing t s).arb.quiet = !s.arb.busy :=
  (countCrossing_steps t s).frame.quiet.trans (lineCrossing_quiet _)

theorem countCrossing_claimOpen : (countCrossing t s).arb.claimOpen = true :=
  (countCrossing_steps t s).frame.claimOpen.trans (lineCrossing_claimOpen _)

theorem countCrossing_busy : (countCrossing t s).arb.busy = true ↔ carrierHeard s = true
    ∨ t.state = .present ∧ s.tx.state = .sending ∧ ∃ f, s.tx.frame = some f ∧ t.count < f.endCount := by
  rw [(countCrossing_steps t s).frame.busy]
  exact lineCrossing_busy (s.setTime t)

theorem countCrossing_group (g : GroupNo) : ((countCrossing t s).group g).holding = (s.group g).holding
    ∧ ((countCrossing t s).group g).stampCounter = (s.group g).stampCounter := by
  have hgroup : (lineCrossing (s.setTime t)).group g = s.group g := by
    rw [State.group, lineCrossing_groups]
    rfl
  rw [(countCrossing_steps t s).frame.holding, (countCrossing_steps t s).frame.stampCounter, hgroup]
  exact ⟨rfl, rfl⟩

/-- R49, R181: a change of state is told behind what the blocks queued in the row. -/
theorem countCrossing_port (hne : s.time.state ≠ t.state) (p : Port) :
    (countCrossing t s).port p = ((crossingEvent (s.setTime t)).port p).arrive t.count
      (.mainsChange s.time.state t.state t.count) := by
  have htime : (crossingEvent (s.setTime t)).time = t := (crossingEvent_steps _).frame.time.trans (lineCrossing_time _)
  have h := mainsNotices_port (left := s.time.state) (s := crossingEvent (s.setTime t)) (by rw [htime]; exact hne) p
  rwa [State.count, htime] at h

theorem countCrossing_toldLast (hne : s.time.state ≠ t.state) (p : Port) :
    ToldLast p (.mainsChange s.time.state t.state t.count) s (countCrossing t s) := by
  have hport := countCrossing_port t s hne p
  intro hshed
  rw [hport] at hshed
  obtain ⟨hbefore, hlast⟩ := arrive_of_not_shedding hshed
  obtain ⟨-, between, hbetween⟩ :=
    ((lineCrossing_noticesGrow p (s.setTime t)).trans ((crossingEvent_steps _).noticesGrow p)) hbefore
  exact ⟨between, by rw [hport, hlast, hbetween, countCrossing_count]; rfl⟩

/-- R31, R32, R50: the tests of a counted crossing pre-announce, and what follows in the row leaves the group alone. -/
theorem countCrossing_preAnnounces (hcount : t.count = s.count + 1) : CrossingPreAnnounces s (countCrossing t s) := by
  intro e b he hmark hearliest hlater hreach hhold hnone hdue hnext hroom
  have hv : LeavesGroup e.group s (lineCrossing (s.setTime t)) :=
    .of_eq (lineCrossing_groups _) (lineCrossing_queue _) (lineCrossing_schedule _)
  have hcv : (lineCrossing (s.setTime t)).count = s.count + 1 := (congrArg (·.count) (lineCrossing_time _)).trans hcount
  have hconf : (lineCrossing (s.setTime t)).conf = s.conf := lineCrossing_conf _
  have hsched : (lineCrossing (s.setTime t)).schedule = s.schedule := lineCrossing_schedule _
  have hqueue : (lineCrossing (s.setTime t)).disp.queue = s.disp.queue := lineCrossing_queue _
  have hfirst : ∀ x ∈ s.schedule, x.group = e.group → e.activation ≤ x.activation := fun x hx hg => by
    by_cases hxe : x = e
    · rw [hxe]
    · exact (hearliest x hx hg hxe).le
  have hpre : preAnnounceable e (lineCrossing (s.setTime t)) = true :=
    (preAnnounceable_congr hv).trans ((preAnnounceable_iff e s).2 ⟨hmark, hfirst, ⟨b, hhold⟩, hnone, hdue, hnext⟩)
  have hend : LeavesGroup e.group (closeEvent 0 (testOpened (lineCrossing (s.setTime t)))) (countCrossing t s) := by
    obtain ⟨hg, hs, hd, -⟩ := mainsNotices_same s.time.state (crossingEvent (s.setTime t))
    exact .of_eq hg (congrArg _ hd) hs
  have hann : preAnn e (lineCrossing (s.setTime t)) = newAnn
      { group := e.group, content := e.setting, activation := some e.activation, origin := some e.origin
        repeats := s.conf.defaultRepeat } (s.count + 1) := by rw [preAnn, hconf, hcv]
  obtain ⟨hmem, hentered⟩ := closeTests_preAnnounces (hsched ▸ he) (lineCrossing_heldBack _) (by rw [hcv]; exact hlater)
    (by rw [hcv, hconf]; exact hreach) hpre (hsched ▸ hearliest) (by rw [hqueue, hsched]; exact hroom) hend
  rw [hann] at hentered
  exact ⟨hmem, hentered⟩

/-- With no departure due, a crossing enters pre-announcements and answers open waits, and no more. -/
theorem crossingEvent_of_movesInv {s : State} (m : MovesInv (lineCrossing s)) :
    ∃ (entered : List SchedEntry) (marked : List SchedEntry), crossingEvent s = settleWaits
      ((setQueue (s.disp.queue ++ entered.map fun e => .ann (preAnn e (lineCrossing s))) (lineCrossing s)).setSchedule
        marked) := by
  obtain ⟨entered, marked, htests⟩ := testOpened_appends (lineCrossing s)
  rw [lineCrossing_queue] at htests
  refine ⟨entered, marked, ?_⟩
  have hidle : MovesInv ((setQueue (s.disp.queue ++ entered.map fun e => Entry.ann (preAnn e (lineCrossing s)))
      (lineCrossing s)).setSchedule marked) := by
    refine m.append_anns rfl (more := entered.map fun e => .ann (preAnn e (lineCrossing s))) ?_ fun x hx => ?_
    · rw [lineCrossing_queue]
      rfl
    · obtain ⟨y, -, rfl⟩ := List.mem_map.1 hx
      rfl
  rw [← closeEvent_zero_of_movesInv hidle, crossingEvent_eq, htests]

/-- With no departure due, a crossing leaves the groups alone, lets entries join the tail of the queue alone, and changes the
exchanges and the Transmitter no more than the line's part does. -/
theorem countCrossing_of_movesInv (m : MovesInv (lineCrossing (s.setTime t))) :
    (countCrossing t s).groups = s.groups ∧ (countCrossing t s).exch = (lineCrossing (s.setTime t)).exch
      ∧ (countCrossing t s).tx = (lineCrossing (s.setTime t)).tx
      ∧ ∃ more, (countCrossing t s).disp.queue = s.disp.queue ++ more := by
  obtain ⟨entered, marked, hevent⟩ := crossingEvent_of_movesInv m
  obtain ⟨hgroups, -, hdisp, hexch, htx⟩ := mainsNotices_same s.time.state (crossingEvent (s.setTime t))
  rw [hevent] at hgroups hdisp hexch htx
  rw [settleWaits_groups] at hgroups
  rw [settleWaits_disp] at hdisp
  rw [settleWaits_exch] at hexch
  rw [settleWaits_tx] at htx
  rw [countCrossing, hevent]
  exact ⟨hgroups.trans (lineCrossing_groups _), hexch, htx, _, congrArg (·.queue) hdisp⟩

/-- With no departure due and nothing abandoned, no notice comes before that of the change of state. -/
theorem countCrossing_told (m : MovesInv (lineCrossing (s.setTime t))) (hports : (lineCrossing (s.setTime t)).ports = s.ports)
    (hne : s.time.state ≠ t.state) (p : Port) :
    Told p (.mainsChange s.time.state t.state t.count) (s.setTime (countCrossing t s).time) (countCrossing t s) := by
  obtain ⟨entered, marked, hevent⟩ := crossingEvent_of_movesInv m
  have hport : (lineCrossing (s.setTime t)).port p = s.port p := congrArg (fun v : PerPort PortCtl => v.get p) hports
  have hnotices : ((crossingEvent (s.setTime t)).port p).notices = (s.port p).notices := by
    rw [hevent, settleWaits_notices, ← hport]
    rfl
  have hshed : ((crossingEvent (s.setTime t)).port p).shedding = (s.port p).shedding := by
    rw [hevent, settleWaits_shedding, ← hport]
    rfl
  intro hs hroom
  refine ⟨[], ?_⟩
  rw [countCrossing_port t s hne p, arrive_of_room (hshed.trans hs) (by rw [hnotices]; exact hroom), hnotices,
    countCrossing_time]
  rfl

/-- R57, R61: an announcement entry of a group that is not due stays in the queue. -/
theorem countCrossing_keeps_ann {a : Ann} (ha : Entry.ann a ∈ s.disp.queue) (hdue : (s.group a.group).due = false) :
    Entry.ann a ∈ (countCrossing t s).disp.queue := by
  obtain ⟨entered, marked, htests⟩ := testOpened_appends (lineCrossing (s.setTime t))
  have hmem : Entry.ann a ∈ (testOpened (lineCrossing (s.setTime t))).disp.queue := by
    rw [htests]
    refine List.mem_append_left _ ?_
    rw [lineCrossing_queue]
    exact ha
  have hdue' : ((testOpened (lineCrossing (s.setTime t))).group a.group).due = false := by
    rw [htests]
    change ((lineCrossing (s.setTime t)).group a.group).due = false
    rw [State.group, lineCrossing_groups]
    exact hdue
  have hdisp := (mainsNotices_same s.time.state (crossingEvent (s.setTime t))).2.2.1
  rw [countCrossing, hdisp]
  exact ((closeEvent_leavesGroup 0 hdue').ann_mem_iff rfl).2 hmem

/-- R73: no exchange ends behind the line's part of the crossing. -/
theorem countCrossing_exchGrows : ExchGrows (lineCrossing (s.setTime t)) (countCrossing t s) := by
  obtain ⟨entered, marked, htests⟩ := testOpened_appends (lineCrossing (s.setTime t))
  have hexch : (testOpened (lineCrossing (s.setTime t))).exch = (lineCrossing (s.setTime t)).exch := by
    rw [htests]
    rfl
  exact ((ExchGrows.of_eq hexch).trans (closeEvent_exchGrows 0 _)).trans (.of_eq (mainsNotices_same _ _).2.2.2.1)

/-- R113, R117: a crossing that does not carry PRESENT leaves nothing on the line. -/
theorem countCrossing_lineFree (i : LineInv s) (h : t.state ≠ .present) :
    (countCrossing t s).tx = dormantTx ∧ (countCrossing t s).arb.holder = .none
      ∧ (countCrossing t s).disp.sending = none := by
  have hinv : LineInv (countCrossing t s) :=
    (countCrossing_steps t s).lineInv (lineCrossing_lineInv (s := s.setTime t) i.holder i.sending h)
  have hdormant : (countCrossing t s).tx.state = .dormant := hinv.mains (by rw [countCrossing_time]; exact h)
  have hframe : (countCrossing t s).tx.frame = none := by simpa [hdormant] using hinv.frame
  have hbackoff : (countCrossing t s).tx.backoffEnd = none := by simpa [hdormant] using hinv.backoff
  have hholder : (countCrossing t s).arb.holder = .none := hinv.holder.2 (by simp [hdormant])
  refine ⟨?_, hholder, Option.eq_none_iff_forall_ne_some.2 fun x hx => ?_⟩
  · rw [dormantTx, ← hdormant, ← hframe, ← hbackoff]
  · cases hholder.symm.trans (hinv.sending x hx)

end

end Sys2Proof.Machine
end

section
/-! ## A synthetic crossing (R45, R46, R117, R142) -/

namespace Sys2Proof.Machine

/-! ### The exchange whose frame is abandoned (R142) -/

section
variable {s : State} {before after : List Exchange} {x : Exchange}

/-- R136: the exchange that holds a tag no other holds is found by it. -/
theorem exchOf_of_split (h : s.exch.table = before ++ x :: after) (hother : ∀ y ∈ before ++ after, y.tag ≠ x.tag) :
    exchOf x.tag s = some x := by
  have hbefore : before.find? (fun y => decide (y.tag = x.tag)) = none :=
    List.find?_eq_none.2 fun y hy => by simpa using hother y (List.mem_append_left _ hy)
  rw [exchOf, h, List.find?_append, hbefore, Option.none_or, List.find?_cons_of_pos (by simp)]

theorem updExch_table (h : s.exch.table = before ++ x :: after) (hother : ∀ y ∈ before ++ after, y.tag ≠ x.tag)
    (f : Exchange → Exchange) : (updExch x.tag f s).exch.table = before ++ f x :: after := by
  have hsame : ∀ l : List Exchange, (∀ y ∈ l, y.tag ≠ x.tag) → l.map (fun y => if y.tag = x.tag then f y else y) = l :=
    fun l hl => (List.map_congr_left (g := id) fun y hy => if_neg (hl y hy)).trans (List.map_id _)
  change s.exch.table.map _ = _
  rw [h, List.map_append, List.map_cons, if_pos rfl, hsame before fun y hy => hother y (List.mem_append_left _ hy),
    hsame after fun y hy => hother y (List.mem_append_right _ hy)]

/-- R142: the exchange becomes READY, its place in the table kept, at the tail of the ready order. -/
theorem exchAbandoned_ready (h : s.exch.table = before ++ x :: after) (hother : ∀ y ∈ before ++ after, y.tag ≠ x.tag)
    (hgo : x.cancelPending = false) :
    (exchAbandoned x.tag s).exch = { table := before ++ { x with state := .ready } :: after, tagCounter := s.exch.tagCounter
                                     ready := s.exch.ready ++ [x.tag] } := by
  have htable := updExch_table h hother fun y => { y with state := .ready }
  have hready : exchAbandoned x.tag s = toReady x id s := by
    rw [exchAbandoned, exchOf_of_split h hother]
    exact if_neg (by simp [hgo])
  rw [hready, ← htable]
  rfl

/-- R142, R155: with cancel-pending set it leaves the table and the ready order, and its port is told CANCELLED. -/
theorem exchAbandoned_cancelled (h : s.exch.table = before ++ x :: after) (hother : ∀ y ∈ before ++ after, y.tag ≠ x.tag)
    (hcancel : x.cancelPending = true) :
    (exchAbandoned x.tag s).exch = { table := before ++ after, tagCounter := s.exch.tagCounter
                                     ready := s.exch.ready.filter (· ≠ x.tag) }
      ∧ (exchAbandoned x.tag s).port x.port = (s.port x.port).arrive s.count (exchNotice x .cancelled none none) := by
  have hfilter : (before ++ x :: after).filter (fun y => decide (y.tag ≠ x.tag)) = before ++ after := by
    rw [List.filter_append, List.filter_cons_of_neg (by simp), ← List.filter_append, List.filter_eq_self]
    exact fun y hy => decide_eq_true (hother y hy)
  have hend : exchAbandoned x.tag s = dropExch x .cancelled none none s := by
    rw [exchAbandoned, exchOf_of_split h hother]
    exact if_pos hcancel
  rw [hend]
  constructor
  · rw [← hfilter, ← h]
    rfl
  · change (notify x.port _ s).port x.port = _
    rw [notify_port, if_pos rfl]

end

/-! ### The crossing with a frame on the line (R117) -/

section
variable {t : TimeBase} {s : State} (hstate : t.state ≠ .present) (hsending : s.tx.state = .sending)
include hstate hsending

/-- The exchange of the abandoned frame, as the line's part of the crossing leaves the exchanges and the ports. -/
theorem lineCrossing_exchange {tag : Tag} (hholder : s.arb.holder = .exchange tag) :
    ∃ u : State, u.exch = s.exch ∧ u.ports = s.ports ∧ u.count = t.count
      ∧ (lineCrossing (s.setTime t)).exch = (exchAbandoned tag u).exch
      ∧ ∀ p, (lineCrossing (s.setTime t)).port p = (exchAbandoned tag u).port p := by
  refine ⟨frameDropped (beforeTx (s.setTime t)), rfl, rfl, rfl, ?_⟩
  rw [lineCrossing_abandons (s := s.setTime t) hstate hsending, show (s.setTime t).arb.holder = .exchange tag from hholder]
  exact ⟨rfl, fun _ => rfl⟩

/-- R128: the receipt of the abandoned frame is on the line no more. -/
theorem countCrossing_receipts {u : UnitNo} {n : Byte} (hholder : s.arb.holder = .receipt u n) :
    (countCrossing t s).rx.receipts
      = s.rx.receipts.map fun r => if r.unit = u ∧ r.number = n then { r with onLine := false } else r := by
  rw [(countCrossing_steps t s).frame.rx, lineCrossing_abandons (s := s.setTime t) hstate hsending,
    show (s.setTime t).arb.holder = .receipt u n from hholder]
  refine List.map_congr_left fun r _ => ?_
  simp only [isReceipt, Bool.and_eq_true, decide_eq_true_eq]

/-- R91: the abandonment of an announcement's frame leaves the exchanges alone. -/
theorem lineCrossing_announcement {g : GroupNo} (hholder : s.arb.holder = .announcement g) :
    (lineCrossing (s.setTime t)).exch = s.exch := by
  rw [lineCrossing_abandons (s := s.setTime t) hstate hsending,
    show (s.setTime t).arb.holder = .announcement g from hholder]
  rfl

variable {before after : List Exchange} {x : Exchange} (hholder : s.arb.holder = .exchange x.tag)
  (htable : s.exch.table = before ++ x :: after) (hother : ∀ y ∈ before ++ after, y.tag ≠ x.tag)
include hholder htable hother

/-- R139, R142: the exchange of the abandoned frame is READY, behind those that were (log 38). -/
theorem countCrossing_exchange_ready (hgo : x.cancelPending = false) :
    { x with state := .ready } ∈ (countCrossing t s).exch.table
      ∧ (∃ moved, (countCrossing t s).exch.ready = s.exch.ready ++ x.tag :: moved)
      ∧ (MovesInv s → (countCrossing t s).exch
          = { table := before ++ { x with state := .ready } :: after, tagCounter := s.exch.tagCounter
              ready := s.exch.ready ++ [x.tag] }) := by
  obtain ⟨u, hexch, -, -, hline, -⟩ := lineCrossing_exchange hstate hsending hholder
  rw [exchAbandoned_ready (hexch ▸ htable) hother hgo, hexch] at hline
  obtain ⟨⟨more, hmore, -⟩, moved, hmoved⟩ := countCrossing_exchGrows t s
  rw [hline] at hmore hmoved
  refine ⟨by simp [hmore], ⟨moved, by rw [hmoved, List.append_assoc]; rfl⟩, fun m => ?_⟩
  have hidle : MovesInv (lineCrossing (s.setTime t)) := by
    refine m.of_table (lineCrossing_queue _) (by rw [hline, htable]; simp) fun ⟨y, hy, hmark⟩ => ?_
    rw [htable, List.mem_append, List.mem_cons] at hy
    rw [hline]
    rcases hy with hy | rfl | hy
    · exact ⟨y, by simp [hy], hmark⟩
    · exact ⟨{ y with state := .ready }, by simp, hmark⟩
    · exact ⟨y, by simp [hy], hmark⟩
  exact (countCrossing_of_movesInv t s hidle).2.1.trans hline

/-- R142, R155: an exchange with cancel-pending set ends, and its tag is free for an order that moves. -/
theorem countCrossing_exchange_cancelled (hcancel : x.cancelPending = true) :
    (∀ y ∈ before ++ after, y ∈ (countCrossing t s).exch.table)
      ∧ (∀ y ∈ (countCrossing t s).exch.table, y.tag = x.tag → y.state = .ready ∧ y.attempts = 0)
      ∧ ((∀ e ∈ s.disp.queue, isWork e = false) → (countCrossing t s).exch =
        { table := before ++ after, tagCounter := s.exch.tagCounter, ready := s.exch.ready.filter (· ≠ x.tag) })
      ∧ (((countCrossing t s).port x.port).shedding = false →
          { count := t.count, body := exchNotice x .cancelled none none } ∈ ((countCrossing t s).port x.port).notices) := by
  obtain ⟨u, hexch, -, hcount, hline, hport⟩ := lineCrossing_exchange hstate hsending hholder
  obtain ⟨hended, htold⟩ := exchAbandoned_cancelled (hexch ▸ htable) hother hcancel
  rw [hended, hexch] at hline
  obtain ⟨⟨more, hmore, hready⟩, -⟩ := countCrossing_exchGrows t s
  rw [hline] at hmore
  refine ⟨fun y hy => by rw [hmore]; exact List.mem_append_left _ hy, fun y hy htag => ?_, fun hnowork => ?_, fun hshed => ?_⟩
  · rw [hmore] at hy
    exact hready y ((List.mem_append.1 hy).resolve_left fun hold => hother y hold htag)
  · have hidle : MovesInv (lineCrossing (s.setTime t)) := movesInv_of_noWork (by rw [lineCrossing_queue]; exact hnowork)
    exact (countCrossing_of_movesInv t s hidle).2.1.trans hline
  · obtain ⟨hbefore, rest, hrest⟩ := (countCrossing_steps t s).noticesGrow x.port hshed
    rw [hport, htold] at hbefore hrest
    rw [hrest, (arrive_of_not_shedding hbefore).2, hcount]
    simp

end

/-- Settles O51: the clauses of a counted crossing, at the Time Base as R45 and R46 leave it. -/
theorem syntheticCrossingLosesTheLine : Obligations.SyntheticCrossingLosesTheLine := by
  refine ⟨fun s hnone => ?_, fun s d hdue => ?_⟩
  · change Host.Outcome.next (syntheticEdge s) = _
    rw [syntheticEdge, hnone]
  have hexec : exec .syntheticCrossing s = .next (countCrossing (s.time.countSynthetic d) s) := by
    change Host.Outcome.next (syntheticEdge s) = _
    rw [syntheticEdge, hdue]
  obtain ⟨t, ht⟩ : ∃ t, t = s.time.countSynthetic d := ⟨_, rfl⟩
  have hcount : t.count = s.count + 1 := by rw [ht]; rfl
  have hlost : t.state = .lost := by rw [ht]; rfl
  have hstate : t.state ≠ .present := by rw [hlost]; exact MainsState.noConfusion
  rw [← ht] at hexec
  refine ⟨countCrossing t s, hexec, (countCrossing_time t s).trans ht, fun hne p => ⟨?_, fun m hidle => ?_⟩,
    fun i => countCrossing_lineFree t s i hstate, fun hsending => ⟨?_, ?_, ?_, ?_⟩,
    fun a ha hnd => countCrossing_keeps_ann t s ha hnd, countCrossing_preAnnounces t s hcount, countCrossing_quiet t s, ?_,
    countCrossing_claimOpen t s, countCrossing_heldBack t s, countCrossing_routes t s, countCrossing_conf t s,
    countCrossing_group t s⟩
  · rw [← hlost, ← hcount]
    exact countCrossing_toldLast t s (by rw [hlost]; exact hne) p
  · obtain ⟨hexch, hports⟩ := lineCrossing_noAbandonment (s := s.setTime t) (.inr hidle)
    rw [← hlost, ← hcount]
    exact countCrossing_told t s (m.of_eq (lineCrossing_queue _) hexch) hports (by rw [hlost]; exact hne) p
  · exact fun before x after hholder htable hother hgo =>
      countCrossing_exchange_ready hstate hsending hholder htable hother hgo
  · rw [← hcount]
    exact fun before x after hholder htable hother hcancel =>
      countCrossing_exchange_cancelled hstate hsending hholder htable hother hcancel
  · exact fun u n hholder => countCrossing_receipts hstate hsending hholder
  · intro g hholder m
    have hidle : MovesInv (lineCrossing (s.setTime t)) :=
      m.of_eq (lineCrossing_queue _) (lineCrossing_announcement hstate hsending hholder)
    obtain ⟨hgroups, -, -, hqueue⟩ := countCrossing_of_movesInv t s hidle
    exact ⟨hqueue, hgroups⟩
  · rw [Bool.eq_iff_iff, countCrossing_busy]
    simp [hstate]

end Sys2Proof.Machine
end

section
/-! ## A real crossing (R42 to R48) -/

namespace Sys2Proof.Machine

/-! ### The Time Base -/

theorem consistent_iff (e d : Nat) : consistent e d = true ↔ 3 * e ≤ 4 * d ∧ 4 * d ≤ 5 * e := by
  simp [consistent]

section
variable {b : TimeBase} {x : Instant}

theorem judge_of_near {r : Instant} {k : RefKind} (href : b.reference = some (r, k)) (hnear : x - r < b.period) :
    b.judge x = if k = .synthetic then .realigning else .noise := by
  simp only [TimeBase.judge, href, hnear, if_true]
  cases k <;> rfl

/-- R42: an edge at half a period or more from the reference point, or with none, is counted. -/
theorem judge_of_far (hfar : ∀ r k, b.reference = some (r, k) → b.period ≤ x - r) : b.judge x = .counted := by
  unfold TimeBase.judge
  split
  · rfl
  · rename_i r k href
    exact if_neg (Nat.not_lt.2 (hfar r k href))

theorem spacing_of_real {y : Instant} (h : b.lastCounted = some (y, .real)) : b.spacing x = some ((x - y) / 2) := by
  simp only [TimeBase.spacing, h]

theorem spacing_of_not_real (h : ∀ y, b.lastCounted ≠ some (y, .real)) : b.spacing x = none := by
  unfold TimeBase.spacing
  split
  · rename_i y hy
    exact absurd hy (h y)
  · rfl

/-- R43, R44, R48: a consistent spacing enters the history, and outside PRESENT lengthens the run. -/
theorem countReal_of_consistent {d : Nat} (hd : b.spacing x = some d) (hc : consistent b.period d = true) :
    b.historyAt x = b.history.drop 1 ++ [d] ∧ (b.state ≠ .present → b.runAt x = b.run + 1) := by
  refine ⟨by simp only [TimeBase.historyAt, hd, hc, if_true], fun hp => ?_⟩
  simp only [TimeBase.runAt, if_neg hp, hd, hc, if_true]

/-- R43, R44, R48: any other spacing leaves the history and ends the run. -/
theorem countReal_of_inconsistent {d : Nat} (hd : b.spacing x = some d) (hc : consistent b.period d ≠ true) :
    b.historyAt x = b.history ∧ b.runAt x = 0 := by
  refine ⟨by simp only [TimeBase.historyAt, hd, if_neg hc], ?_⟩
  simp only [TimeBase.runAt, hd, if_neg hc, ite_self]

theorem historyAt_of_no_spacing (h : b.spacing x = none) : b.historyAt x = b.history := by
  simp only [TimeBase.historyAt, h]

theorem runAt_le_of_no_spacing (h : b.spacing x = none) : b.runAt x ≤ b.run := by
  simp only [TimeBase.runAt, h]
  split <;> omega

theorem stateAt_of_run_lt (h : b.runAt x < 3) : b.stateAt x = b.state := if_neg (Nat.not_le.2 h)

theorem stateAt_of_le_run (h : 3 ≤ b.runAt x) : b.stateAt x = .present := if_pos h

/-- R46: in PRESENT no run is counted and the state stays. -/
theorem stateAt_of_present (h : b.state = .present) : b.stateAt x = .present := by
  have hrun : b.runAt x = 0 := if_pos h
  rw [stateAt_of_run_lt (by omega), h]

end

/-! ### The rows -/

theorem exec_realCrossing_noise {x : Nat} {s : State} (h : s.time.judge (2 * x) = .noise) :
    exec (.realCrossing x) s = .next s := by
  change Host.Outcome.next (realEdge (2 * x) s) = _
  simp only [realEdge, h]

theorem exec_realCrossing_realigning {x : Nat} {s : State} (h : s.time.judge (2 * x) = .realigning) :
    exec (.realCrossing x) s = .next (s.setTime (s.time.realign (2 * x))) := by
  change Host.Outcome.next (realEdge (2 * x) s) = _
  simp only [realEdge, h]

theorem exec_realCrossing_counted {x : Nat} {s : State} (h : s.time.judge (2 * x) = .counted) :
    exec (.realCrossing x) s = .next (countCrossing (s.time.countReal (2 * x)) s) := by
  change Host.Outcome.next (realEdge (2 * x) s) = _
  simp only [realEdge, h]

/-! ### The notices and the Transmitter where the crossing carries PRESENT -/

section
variable {t : TimeBase} {s : State} (hp : t.state = .present)
include hp

theorem lineCrossing_movesInv_of_present (m : MovesInv s) : MovesInv (lineCrossing (s.setTime t)) :=
  m.of_eq (lineCrossing_queue _) (lineCrossing_noAbandonment (s := s.setTime t) (.inl hp)).1

/-- R44, R48, R49: both ports are told that the mains are PRESENT. -/
theorem countCrossing_tells_present (hne : s.time.state ≠ .present) (p : Port) :
    ToldLast p (.mainsChange s.time.state .present t.count) s (countCrossing t s)
      ∧ (MovesInv s → Told p (.mainsChange s.time.state .present t.count) (s.setTime (countCrossing t s).time)
          (countCrossing t s)) := by
  rw [← hp] at hne ⊢
  exact ⟨countCrossing_toldLast t s hne p, fun m => countCrossing_told t s (lineCrossing_movesInv_of_present hp m)
    (lineCrossing_noAbandonment (s := s.setTime t) (.inl hp)).2 hne p⟩

/-- R113: a Transmitter that is not DORMANT goes on as it is. -/
theorem countCrossing_tx_of_present (m : MovesInv s) (hd : s.tx.state ≠ .dormant) : (countCrossing t s).tx = s.tx := by
  rw [(countCrossing_of_movesInv t s (lineCrossing_movesInv_of_present hp m)).2.2.1, lineCrossing_tx,
    if_pos (show (s.setTime t).time.state = .present from hp)]
  exact if_neg fun h => hd h.1

/-- R113: with a station unit number, a DORMANT Transmitter becomes IDLE. -/
theorem countCrossing_wakes (hd : s.tx.state = .dormant) (hstation : s.conf.station ≠ 0) :
    (countCrossing t s).tx.state = .idle := by
  refine (countCrossing_steps t s).tx_idle (by rw [lineCrossing_conf]; exact hstation) ?_
  rw [lineCrossing_tx, if_pos (show (s.setTime t).time.state = .present from hp)]
  have hwakes : presentTx (s.setTime t) = { s.tx with state := .idle } := if_pos ⟨hd, hstation⟩
  rw [hwakes]

end

/-- Settles O50: the Time Base judges and counts the edge, and a counted one is a counted crossing as any. -/
theorem realCrossingIsJudged : Obligations.RealCrossingIsJudged := by
  refine ⟨fun x s r k href hnear => ⟨fun hk => ?_, fun hk => ?_⟩, fun x s hfar => ?_⟩
  · exact exec_realCrossing_noise ((judge_of_near href hnear).trans (if_neg hk))
  · exact exec_realCrossing_realigning ((judge_of_near href hnear).trans (if_pos hk))
  have hexec := exec_realCrossing_counted (judge_of_far hfar)
  obtain ⟨t, ht⟩ : ∃ t, t = s.time.countReal (2 * x) := ⟨_, rfl⟩
  have hcount : t.count = s.count + 1 := by rw [ht]; rfl
  have hstate : t.state = s.time.stateAt (2 * x) := by rw [ht]; rfl
  have hhistory : t.history = s.time.historyAt (2 * x) := by rw [ht]; rfl
  have hrun : t.run = if t.state = .present then 0 else s.time.runAt (2 * x) := by rw [hstate, ht]; rfl
  have hdue : t.due = if t.state = .starting then none else some (2 * x + 3 * t.period) := by rw [hstate, ht]; rfl
  rw [← ht] at hexec
  have htime := countCrossing_time t s
  refine ⟨countCrossing t s, hexec, (countCrossing_count t s).trans hcount, by rw [htime, ht]; rfl, by rw [htime, ht]; rfl,
    fun y hy => ?_, fun hnot hshort => ?_, fun hp => ?_, fun hs => ?_, fun hs => ?_, countCrossing_quiet t s,
    countCrossing_claimOpen t s, countCrossing_heldBack t s, ?_, fun m hp hd => ?_, fun i hp => ?_, fun hp hd hst => ?_,
    countCrossing_preAnnounces t s hcount, countCrossing_routes t s, countCrossing_conf t s, countCrossing_group t s⟩
  · have hspacing := spacing_of_real (x := 2 * x) hy
    rw [← consistent_iff, htime]
    refine ⟨fun hc => ?_, fun hc => ?_⟩
    · obtain ⟨hnew, hlonger⟩ := countReal_of_consistent hspacing hc
      refine ⟨hhistory.trans hnew, fun hnp hshort => ?_, fun hnp hlong => ?_⟩
      · have hsame : t.state = s.time.state := hstate.trans (stateAt_of_run_lt (by rw [hlonger hnp]; omega))
        exact ⟨by rw [hrun, hsame, if_neg hnp, hlonger hnp], hsame⟩
      · have hp : t.state = .present := hstate.trans (stateAt_of_le_run (by rw [hlonger hnp]; omega))
        rw [← hcount]
        refine ⟨by rw [hrun, if_pos hp], hp, fun p => ?_⟩
        have htold := countCrossing_tells_present hp hnp p
        rwa [htime] at htold
    · obtain ⟨hold, hzero⟩ := countReal_of_inconsistent hspacing hc
      exact ⟨hhistory.trans hold, hstate.trans (stateAt_of_run_lt (by omega)), by rw [hrun, hzero, ite_self]⟩
  · have hnone := spacing_of_not_real (x := 2 * x) hnot
    have hle := runAt_le_of_no_spacing hnone
    rw [htime]
    exact ⟨hhistory.trans (historyAt_of_no_spacing hnone), hstate.trans (stateAt_of_run_lt (by omega))⟩
  · have hpt : t.state = .present := hstate.trans (stateAt_of_present hp)
    rw [htime]
    exact ⟨hpt, by rw [hdue, if_neg (by rw [hpt]; exact MainsState.noConfusion)]⟩
  · rw [htime] at hs ⊢
    rw [hdue, if_neg hs]
  · rw [htime] at hs ⊢
    rw [hdue, if_pos hs]
  · rw [countCrossing_busy, htime, hcount]
  · exact countCrossing_tx_of_present (htime ▸ hp) m hd
  · obtain ⟨htx, -, -⟩ := countCrossing_lineFree t s i (htime ▸ hp)
    rw [htx]
    exact ⟨rfl, rfl, rfl⟩
  · exact countCrossing_wakes (htime ▸ hp) hd hst

end Sys2Proof.Machine
end

section
/-! ## Numbers in bytes, most significant byte first (R97, R173, R174) -/

namespace Sys2Proof.Machine

@[simp] theorem beBytes_length (k v : Nat) : (beBytes k v).length = k := by
  induction k with
  | zero => rfl
  | succ k ih => exact congrArg (· + 1) ih

/-- The first byte is the most significant. -/
theorem ofBE_cons (b : Byte) (bs : List Byte) : ofBE (b :: bs) = b.toNat * 256 ^ bs.length + ofBE bs := by
  suffices hfold : ∀ (bs : List Byte) (v : Nat),
      bs.foldl (fun v b => 256 * v + b.toNat) v = v * 256 ^ bs.length + ofBE bs by
    simpa [ofBE] using hfold bs b.toNat
  intro bs
  induction bs with
  | nil => intro v; simp [ofBE]
  | cons c cs ih =>
    intro v
    have hlater := ih (256 * v + c.toNat)
    have hfirst := ih (256 * 0 + c.toNat)
    simp only [ofBE, List.foldl_cons, List.length_cons] at hlater hfirst ⊢
    rw [hlater, hfirst]
    ring

/-- The bytes of a number spell what of it they have room for. -/
@[simp] theorem ofBE_beBytes (k v : Nat) : ofBE (beBytes k v) = v % 256 ^ k := by
  induction k with
  | zero => rw [pow_zero, Nat.mod_one]; rfl
  | succ k ih =>
    have hbyte : (BitVec.ofNat 8 (v / 256 ^ k)).toNat = v / 256 ^ k % 256 := BitVec.toNat_ofNat ..
    rw [beBytes, ofBE_cons, ih, beBytes_length, hbyte, pow_succ, Nat.mod_mul]
    ring

/-- A unit number has room in three bytes. -/
theorem ofBE_beBytes_unit {u : UnitNo} (hu : u < 2 ^ 24) : ofBE (beBytes 3 u) = u :=
  (ofBE_beBytes 3 u).trans (Nat.mod_eq_of_lt hu)

/-- The bytes of several numbers of one width. -/
@[simp] theorem flatMap_beBytes_length (k : Nat) (vs : List Nat) : (vs.flatMap (beBytes k)).length = k * vs.length := by
  induction vs with
  | nil => rfl
  | cons v vs ih => rw [List.flatMap_cons, List.length_append, beBytes_length, ih, List.length_cons]; ring

/-- A layout of one field. -/
theorem spells_beBytes (k v : Nat) : Spells [(k, v)] (beBytes k v) :=
  ⟨beBytes k v, [], (List.append_nil _).symm, beBytes_length k v, ofBE_beBytes k v, rfl⟩

/-- Layouts one behind the other. -/
theorem Spells.append {fs gs : List (Nat × Nat)} {xs ys : List Byte} (hx : Spells fs xs) (hy : Spells gs ys) :
    Spells (fs ++ gs) (xs ++ ys) := by
  induction fs generalizing xs with
  | nil =>
    cases (show xs = [] from hx)
    exact hy
  | cons f fs ih =>
    obtain ⟨head, rest, rfl, hlength, hvalue, hrest⟩ := hx
    exact ⟨head, rest ++ ys, List.append_assoc .., hlength, hvalue, ih hrest⟩

/-- A layout of any number of fields of one width. -/
theorem spells_flatMap (k : Nat) (vs : List Nat) : Spells (vs.map fun v => (k, v)) (vs.flatMap (beBytes k)) := by
  induction vs with
  | nil => exact rfl
  | cons v vs ih => exact (spells_beBytes k v).append ih

end Sys2Proof.Machine
end

section
/-! ## The frame check (R101) -/

namespace Sys2Proof.Machine

theorem crcBits_succ (n : Nat) (r : BitVec 16) : crcBits (n + 1) r = crcBit (crcBits n r) := by
  induction n generalizing r with
  | zero => rfl
  | succ n ih => exact ih (crcBit r)

theorem frameCheck_append (bs cs : List Byte) : frameCheck (bs ++ cs) = cs.foldl crcByte (frameCheck bs) :=
  List.foldl_append

/-- The generator is taken when the first bits of the register and of what is still to come differ. -/
theorem crcBit_xor (r d : BitVec 16) :
    crcBit (r ^^^ d) = (if r.msb ≠ d.msb then (r <<< 1) ^^^ 4129#16 else r <<< 1) ^^^ (d <<< 1) := by
  simp only [crcBit, BitVec.msb_xor, Bool.xor_iff_ne, BitVec.shiftLeft_xor_distrib]
  split
  · ac_rfl
  · rfl

/-- The register of the bit-serial check after `i` bits of a byte: the model's register, which holds the bits still to come in
front, without them. -/
def serialRegister (r : BitVec 16) (b : Byte) (i : Nat) : BitVec 16 :=
  crcBits i (r ^^^ (b.setWidth 16 <<< 8)) ^^^ (b.setWidth 16 <<< (8 + i))

theorem serialRegister_zero (r : BitVec 16) (b : Byte) : serialRegister r b 0 = r := by
  rw [serialRegister, crcBits, BitVec.xor_assoc, BitVec.xor_self, BitVec.xor_zero]

theorem serialRegister_eight (r : BitVec 16) (b : Byte) : serialRegister r b 8 = crcByte r b := by
  rw [serialRegister, BitVec.shiftLeft_eq_zero (n := 8 + 8) (by decide), BitVec.xor_zero, crcByte]

/-- R101: the next bit of the byte, the most significant first. -/
theorem serialRegister_succ (r : BitVec 16) (b : Byte) {i : Nat} (hi : i < 8) :
    serialRegister r b (i + 1)
      = if (serialRegister r b i).getLsbD 15 ≠ b.getLsbD (7 - i) then (serialRegister r b i <<< 1) ^^^ 4129#16
        else serialRegister r b i <<< 1 := by
  have hregister : crcBits i (r ^^^ (b.setWidth 16 <<< 8)) = serialRegister r b i ^^^ (b.setWidth 16 <<< (8 + i)) := by
    rw [serialRegister, BitVec.xor_assoc, BitVec.xor_self, BitVec.xor_zero]
  have hbit : (b.setWidth 16 <<< (8 + i)).msb = b.getLsbD (7 - i) := by
    have hplace : 15 - (8 + i) = 7 - i := by omega
    have hbehind : ¬ 15 < 8 + i := by omega
    simp [BitVec.msb_eq_getLsbD_last, hplace, hbehind]
  have hnext := crcBit_xor (serialRegister r b i) (b.setWidth 16 <<< (8 + i))
  rw [hbit, BitVec.msb_eq_getLsbD_last, ← BitVec.shiftLeft_add] at hnext
  rw [serialRegister, crcBits_succ, hregister, hnext, ← Nat.add_assoc, BitVec.xor_assoc, BitVec.xor_self, BitVec.xor_zero]

/-- Bits in front that are 0 only move the register. -/
theorem crcBits_of_lt {n : Nat} {r : BitVec 16} (h : r.toNat * 2 ^ n < 2 ^ 16) : crcBits n r = r <<< n := by
  induction n generalizing r with
  | zero => exact (BitVec.shiftLeft_zero r).symm
  | succ n ih =>
    have hsmall : r.toNat * 2 < 2 ^ 16 := by
      exact lt_of_le_of_lt (Nat.mul_le_mul_left _ (Nat.le_self_pow (Nat.succ_ne_zero n) 2)) h
    have hmsb : r.msb = false := BitVec.msb_eq_false_iff_two_mul_lt.mpr (by omega)
    have hone : crcBit r = r <<< 1 := by rw [crcBit, hmsb]; rfl
    have htwice : (r <<< 1).toNat = r.toNat * 2 := by
      rw [BitVec.toNat_shiftLeft, Nat.shiftLeft_eq, pow_one, Nat.mod_eq_of_lt hsmall]
    have hrest : (r <<< 1).toNat * 2 ^ n < 2 ^ 16 := by rwa [htwice, mul_assoc, ← pow_succ']
    rw [crcBits, hone, ih hrest, ← BitVec.shiftLeft_add, Nat.add_comm 1 n]

/-- The two bytes of a register. -/
theorem beBytes_two_toNat (r : BitVec 16) : beBytes 2 r.toNat = [(r >>> 8).setWidth 8, r.setWidth 8] := by
  simp [beBytes, BitVec.toNat_eq, Nat.shiftRight_eq_div_pow]

/-- A register without its high byte is its low byte. -/
theorem xor_high_byte (r : BitVec 16) :
    r ^^^ (((r >>> 8).setWidth 8).setWidth 16 <<< 8) = (r.setWidth 8).setWidth 16 := by
  ext i hi
  by_cases hlow : i < 8
  · simp [hlow, BitVec.getLsbD_eq_getElem hi]
  · have hback : 8 + (i - 8) = i := by omega
    have hbyte : i - 8 < 8 := by omega
    simp [hlow, hback, hbyte, BitVec.getLsbD_eq_getElem hi]

/-- A register that its own two bytes go into ends at 0. -/
theorem foldl_crcByte_own (r : BitVec 16) : (beBytes 2 r.toNat).foldl crcByte r = 0 := by
  have hsmall : ((r.setWidth 8).setWidth 16).toNat * 2 ^ 8 < 2 ^ 16 := by
    have hbyte := (r.setWidth 8).isLt
    rw [BitVec.toNat_setWidth]
    omega
  have hfirst : crcByte r ((r >>> 8).setWidth 8) = (r.setWidth 8).setWidth 16 <<< 8 := by
    rw [crcByte, xor_high_byte, crcBits_of_lt hsmall]
  have hsecond : crcByte ((r.setWidth 8).setWidth 16 <<< 8) (r.setWidth 8) = 0 := by
    rw [crcByte, BitVec.xor_self, crcBits_of_lt (by decide), BitVec.zero_shiftLeft]
    rfl
  rw [beBytes_two_toNat, List.foldl_cons, List.foldl_cons, hfirst, hsecond, List.foldl_nil]

/-- R101: the check over bytes and their own check is 0. -/
theorem frameCheck_withCheck (bs : List Byte) : frameCheck (withCheck bs) = 0 :=
  (frameCheck_append ..).trans (foldl_crcByte_own _)

end Sys2Proof.Machine
end

section
/-! ## Building a frame and reading it back (R54, R97 to R100) -/

namespace Sys2Proof.Machine

/-- R100: the byte of a relay set has one bit for each relay, K1 the lowest. -/
theorem setRelays_toNat (k : BitVec 4) :
    (k.setWidth 8).toNat = (if k.getLsbD 0 then 1 else 0) + (if k.getLsbD 1 then 2 else 0)
      + (if k.getLsbD 2 then 4 else 0) + (if k.getLsbD 3 then 8 else 0) := by
  revert k
  decide

/-- R100: the bytes of an ANNOUNCE payload. -/
theorem announcePayload_toNat (g : GroupNo) (x : Stamp) {cd : Nat} {st : Setting} (hcd : cd ≤ 65535) (hrate : st.rate < 256)
    (hlevel : st.level < 256) :
    (announcePayload g x cd st).map (·.toNat) = [g.val, x.toNat / 256, x.toNat % 256, cd / 256, cd % 256, st.rate
      , (if st.relays.getLsbD 0 then 1 else 0) + (if st.relays.getLsbD 1 then 2 else 0)
        + (if st.relays.getLsbD 2 then 4 else 0) + (if st.relays.getLsbD 3 then 8 else 0)
      , st.level] := by
  have hg := g.isLt
  have hx := x.isLt
  have hone : ∀ v < 256, (BitVec.ofNat 8 v).toNat = v := fun v hv => Nat.mod_eq_of_lt hv
  rw [← setRelays_toNat]
  simp only [announcePayload, beBytes, List.cons_append, List.nil_append, List.map_cons, List.map_nil, pow_zero, pow_one,
    Nat.div_one]
  rw [hone g.val (by omega), hone (x.toNat / 256) (by omega), hone (cd / 256) (by omega), hone st.rate hrate,
    hone st.level hlevel]
  rfl

/-- R100: the bytes of an ORDER frame payload. -/
theorem orderPayload_toNat (tag : Tag) (g : GroupNo) :
    (orderPayload tag (.assign g)).map (·.toNat) = [tag.toNat, 1, g.val]
      ∧ (orderPayload tag (.query g)).map (·.toNat) = [tag.toNat, 2]
      ∧ (orderPayload tag .test).map (·.toNat) = [tag.toNat, 3] := by
  have hg : (BitVec.ofNat 8 g.val).toNat = g.val := Nat.mod_eq_of_lt (by have := g.isLt; omega)
  refine ⟨?_, rfl, rfl⟩
  simp only [orderPayload, List.map_cons, List.map_nil, hg]
  rfl

/-- R54: the slots behind the first two are the fewest that carry the body. -/
theorem slotsOf_least (b : Nat) (g : Grade) :
    ∃ n, slotsOf b g = 2 + n ∧ b ≤ n * bytesPerSlot g ∧ ∀ m, b ≤ m * bytesPerSlot g → n ≤ m := by
  have hpos : 0 < bytesPerSlot g := by cases g <;> decide
  refine ⟨b ⌈/⌉ bytesPerSlot g, ?_, ?_, fun m hm => ?_⟩
  · rfl
  · rw [mul_comm]; exact le_smul_ceilDiv hpos
  · rwa [ceilDiv_le_iff_le_mul hpos, mul_comm]

section
variable (kind : FrameKind) (dest source hop : Nat) (path : List UnitNo) (payload : List Byte)

/-- R98, R99: what stands before the payload: header and relay path. -/
def headBytes : List Byte :=
  beBytes 1 (frameKindNo kind) ++ beBytes 3 dest ++ beBytes 3 source ++ [controlByte path.length 0 hop]
    ++ path.flatMap (beBytes 3)

/-- The two check bytes of a frame. -/
def checkBytes : List Byte := beBytes 2 (frameCheck (headBytes kind dest source hop path ++ payload)).toNat

theorem buildBody_eq : buildBody kind dest source hop path payload
    = headBytes kind dest source hop path ++ payload ++ checkBytes kind dest source hop path payload := rfl

theorem headBytes_length : (headBytes kind dest source hop path).length = 8 + 3 * path.length := by
  simp [headBytes]
  omega

theorem buildBody_length :
    (buildBody kind dest source hop path payload).length = 10 + 3 * path.length + payload.length := by
  rw [buildBody_eq, List.length_append, List.length_append, headBytes_length, checkBytes, beBytes_length]
  omega

end

/-- R98: the value of a control byte with position index 0. -/
theorem controlByte_toNat {h hop : Nat} (hh : h ≤ 3) (hhop : hop ≤ 3) : (controlByte h 0 hop).toNat = 16 * h + hop := by
  rw [controlByte, BitVec.toNat_ofNat]
  omega

/-- R97 to R99: the layout of header and relay path. -/
theorem spells_headBytes (kind : FrameKind) (dest source hop : Nat) (path : List UnitNo) :
    Spells ((1, frameKindNo kind) :: (3, dest) :: (3, source) :: (1, 16 * path.length + hop) :: path.map fun u => (3, u))
      (headBytes kind dest source hop path) := by
  have hcontrol : [controlByte path.length 0 hop] = beBytes 1 (16 * path.length + hop) := by
    simp [controlByte, beBytes]
  rw [headBytes, hcontrol]
  exact ((((spells_beBytes ..).append (spells_beBytes ..)).append (spells_beBytes ..)).append (spells_beBytes ..)).append
    (spells_flatMap ..)

/-- A unit number behind other bytes is read back. -/
theorem unitAt_append (before after : List Byte) {u : UnitNo} (hu : u < 2 ^ 24) :
    unitAt (before ++ (beBytes 3 u ++ after)) before.length = u := by
  have hread : unitAt (before ++ (beBytes 3 u ++ after)) before.length = ofBE (beBytes 3 u) := by
    simp [unitAt, byteAt, beBytes]
  rw [hread, ofBE_beBytes_unit hu]

/-- R99: the `i`-th relay of a path behind other bytes is read back. -/
theorem unitAt_flatMap (before after : List Byte) {path : List UnitNo} (hunits : ∀ u ∈ path, u < 2 ^ 24) {i : Nat}
    (hi : i < path.length) :
    unitAt (before ++ (path.flatMap (beBytes 3) ++ after)) (before.length + 3 * i) = path[i] := by
  have hsplit : path.flatMap (beBytes 3)
      = (path.take i).flatMap (beBytes 3) ++ (beBytes 3 path[i] ++ (path.drop (i + 1)).flatMap (beBytes 3)) := by
    rw [← List.flatMap_cons, ← List.flatMap_append, List.getElem_cons_drop, List.take_append_drop]
  have hplace : before.length + 3 * i = (before ++ (path.take i).flatMap (beBytes 3)).length := by
    rw [List.length_append, flatMap_beBytes_length, List.length_take_of_le hi.le]
  rw [hsplit, hplace, List.append_assoc, List.append_assoc, ← List.append_assoc before]
  exact unitAt_append _ _ (hunits _ (List.getElem_mem hi))

section
variable (kind : FrameKind) (dest source : Nat) {hop : Nat} {path : List UnitNo} (payload : List Byte)

theorem destOf_buildBody (hdest : dest < 2 ^ 24) :
    destOf (buildBody kind dest source hop path payload) = dest := by
  have hread : destOf (buildBody kind dest source hop path payload) = ofBE (beBytes 3 dest) := rfl
  rw [hread, ofBE_beBytes_unit hdest]

theorem sourceOf_buildBody (hsource : source < 2 ^ 24) :
    sourceOf (buildBody kind dest source hop path payload) = source := by
  have hread : sourceOf (buildBody kind dest source hop path payload) = ofBE (beBytes 3 source) := rfl
  rw [hread, ofBE_beBytes_unit hsource]

theorem controlByte_buildBody (hpath : path.length ≤ 3) (hhop : hop ≤ 3) :
    (byteAt (buildBody kind dest source hop path payload) 7).toNat = 16 * path.length + hop :=
  controlByte_toNat hpath hhop

theorem relayCount_buildBody (hpath : path.length ≤ 3) (hhop : hop ≤ 3) :
    relayCount (buildBody kind dest source hop path payload) = path.length := by
  rw [relayCount, controlByte_buildBody _ _ _ _ hpath hhop]
  omega

theorem positionIndex_buildBody (hpath : path.length ≤ 3) (hhop : hop ≤ 3) :
    positionIndex (buildBody kind dest source hop path payload) = 0 := by
  rw [positionIndex, controlByte_buildBody _ _ _ _ hpath hhop]
  omega

theorem pathOf_buildBody (hpath : path.length ≤ 3) (hhop : hop ≤ 3) (hunits : ∀ u ∈ path, u < 2 ^ 24) :
    pathOf (buildBody kind dest source hop path payload) = path := by
  rw [pathOf, relayCount_buildBody _ _ _ _ hpath hhop]
  refine List.ext_getElem (by simp) fun i _ hi => ?_
  rw [List.getElem_map, List.getElem_range, buildBody_eq, headBytes, List.append_assoc, List.append_assoc]
  exact unitAt_flatMap _ _ hunits hi

theorem payloadOf_buildBody (hpath : path.length ≤ 3) (hhop : hop ≤ 3) :
    payloadOf (buildBody kind dest source hop path payload) = payload := by
  have hlength : 10 + 3 * path.length + payload.length - 10 - 3 * path.length = payload.length := by omega
  rw [payloadOf, relayCount_buildBody _ _ _ _ hpath hhop, buildBody_length, hlength, buildBody_eq, List.append_assoc,
    List.drop_left' (headBytes_length ..), List.take_left]

end

/-- Settles O43: each clause is a lemma above; the bit-serial register of R101 is `serialRegister`. -/
theorem framesRoundTrip : Obligations.FramesRoundTrip := by
  unfold Obligations.FramesRoundTrip
  refine ⟨⟨rfl, by decide +kernel, fun bs b => ?_⟩, fun g x cd st => announcePayload_toNat g x, orderPayload_toNat,
    fun bytes => ?_, fun k dest source hop path payload hdest hsource hhop hpath hunits => ?_, fun b g => ?_⟩
  · refine ⟨serialRegister (frameCheck bs) b, serialRegister_zero _ b, ?_, fun i => serialRegister_succ _ b⟩
    rw [serialRegister_eight, frameCheck_append]
    rfl
  · exact ⟨frameCheck_withCheck bytes, _, rfl, spells_beBytes ..⟩
  · refine ⟨buildBody_length .., frameCheck_withCheck _, ?layout, destOf_buildBody k dest source payload hdest,
      sourceOf_buildBody k dest source payload hsource, ?hopLimit, positionIndex_buildBody k dest source payload hpath hhop,
      pathOf_buildBody k dest source payload hpath hhop hunits, payloadOf_buildBody k dest source payload hpath hhop⟩
    case layout =>
      exact ⟨headBytes k dest source hop path, _, buildBody_eq .., spells_headBytes .., spells_beBytes ..⟩
    case hopLimit =>
      rw [controlByte_buildBody _ _ _ _ hpath hhop]
      omega
  · exact slotsOf_least b g

end Sys2Proof.Machine
end

section
/-! ## The two intervals of an announcement (R66, R89) -/

namespace Sys2Proof.Machine

/-- R66: an announcement is eligible from the end of its settle interval on, or of its repeat spacing behind a transmission,
and while a countdown reaches its activation. -/
theorem eligible_iff (s : State) (a : Ann) :
    eligible s a = true ↔
      (a.done = 0 → a.entryCount + s.conf.settleInterval ≤ s.count)
        ∧ (a.done ≠ 0 → ∀ e, a.lastEnd = some e → e + s.conf.repeatSpacing ≤ s.count)
        ∧ ∀ v, a.activation = some v → v - (s.count + announceSlots s.conf.broadcastGrade) ≤ 65535 := by
  have hsub (v n : Nat) : v - n ≤ 65535 ↔ v ≤ n + 65535 := Nat.sub_le_iff_le_add'
  unfold eligible
  by_cases hdone : a.done = 0
  · cases a.activation <;> simp [hdone, hsub]
  · cases a.lastEnd <;> cases a.activation <;> simp [hdone, hsub]

/-- Settles O16: the rows store nothing, so what they do is what `eligible_iff` says of the counts. -/
theorem intervalsMakeEligible : Obligations.IntervalsMakeEligible :=
  ⟨fun _ _ _ => rfl, fun _ _ => ⟨rfl, rfl⟩, eligible_iff⟩

end Sys2Proof.Machine
end

section
/-! ## The claims of a crossing (R66, R67, R109 to R112, R116, R128, R161) -/

namespace Sys2Proof.Machine

/-! ### Who claims, and when -/

theorem canClaim_iff (s : State) :
    canClaim s = true ↔ s.time.state = .present ∧ s.conf.station ≠ 0 ∧ s.tx.state = .idle ∧ s.arb.quiet = true
      ∧ carrierHeard s = false := by
  simp only [canClaim, Bool.and_eq_true, decide_eq_true_eq, Bool.not_eq_true', and_assoc]

/-- R67: the Dispatcher offers no entry where none of the window, ahead of the first fence, is eligible. -/
theorem offerIn_eq_none (s : State) (k : Nat) {q : List Entry}
    (h : ∀ ahead a behind, q = ahead ++ .ann a :: behind → ahead.length < k → (∀ e ∈ ahead, isFence e = false) →
      eligible s a = false) : offerIn s k q = none := by
  induction q generalizing k with
  | nil => cases k <;> rfl
  | cons e es ih =>
    cases k with
    | zero => rfl
    | succ k =>
      have hrest (hfence : isFence e = false) : offerIn s k es = none := by
        refine ih k fun ahead a behind hq hlen hahead => h (e :: ahead) a behind (by rw [hq]; rfl) (by simpa using hlen) ?_
        exact List.forall_mem_cons.2 ⟨hfence, hahead⟩
      cases e with
      | fence p => rfl
      | order o => simp [offerIn, hrest rfl]
      | ann a =>
        have hne : eligible s a = false := h [] a es rfl (by simp) (by simp)
        simp [offerIn, hne, hrest rfl]

/-- R110: with no claim made, nothing is granted. -/
theorem grant_eq_self {s : State} (hreceipts : ∀ r ∈ s.rx.receipts, r.onLine = true) (hready : s.exch.ready = [])
    (hoffer : offerIn s 4 s.disp.queue = none) : grant s = s := by
  have hreceipt : receiptClaim s = none := List.find?_eq_none.2 fun r hr => by simp [hreceipts r hr]
  have hexchange : exchangeClaim s = none := by simp [exchangeClaim, hready]
  have hnone : offer s = none := by simp [offer, hoffer]
  simp only [grant, hreceipt, hexchange, hnone]

/-! ### The CLAIM row (R109, R110; log 10) -/

theorem exec_claim (s : State) : exec .claim s = .next (judgeClaims s) := rfl

theorem closeClaims_of_closed {s : State} (h : s.arb.claimOpen = false) : closeClaims s = s := by
  unfold closeClaims
  rw [← h]
  rfl

/-- R109: behind the end of the backoff, the claims not judged yet are judged where the line can be claimed. -/
theorem judgeClaims_eq (s : State) : judgeClaims s =
    if (endBackoff s).arb.claimOpen = true ∧ canClaim (endBackoff s) = true then grant (closeClaims (endBackoff s))
    else closeClaims (endBackoff s) := by
  have hcan : canClaim (closeClaims (endBackoff s)) = canClaim (endBackoff s) := rfl
  change (if (endBackoff s).arb.claimOpen then
    (if canClaim (closeClaims (endBackoff s)) then grant (closeClaims (endBackoff s)) else closeClaims (endBackoff s))
      else endBackoff s) = _
  rw [hcan]
  cases hopen : (endBackoff s).arb.claimOpen with
  | true => simp
  | false => simp [closeClaims_of_closed hopen]

theorem endBackoff_of_ne {s : State} (h : s.tx.state ≠ .backoff) : endBackoff s = s := by
  unfold endBackoff
  split
  · contradiction
  · rfl

/-- R116: at its backoff end, in PRESENT, the Transmitter becomes IDLE. -/
theorem endBackoff_ended {s : State} {b : Count} (h : s.tx.state = .backoff) (hb : s.tx.backoffEnd = some b)
    (hend : b ≤ s.count ∧ s.time.state = .present) :
    endBackoff s = s.setTx { s.tx with state := .idle, backoffEnd := none } := by
  simp only [endBackoff, h, hb, hend, and_self, if_true]

theorem endBackoff_waiting {s : State} {b : Count} (h : s.tx.state = .backoff) (hb : s.tx.backoffEnd = some b)
    (hwait : ¬ (b ≤ s.count ∧ s.time.state = .present)) : endBackoff s = s := by
  simp only [endBackoff, h, hb, if_neg hwait]

/-- R109: a line that cannot be claimed gets no grant. -/
theorem exec_claim_of_not_canClaim {s : State} (hback : endBackoff s = s) (h : canClaim s = false) :
    exec .claim s = .next (closeClaims s) := by
  rw [exec_claim, judgeClaims_eq, hback, if_neg (by simp [h])]

/-- R110: without a claim the line stays free. -/
theorem exec_claim_of_no_claim {s : State} (hback : endBackoff s = s) (hgrant : grant (closeClaims s) = closeClaims s) :
    exec .claim s = .next (closeClaims s) := by
  rw [exec_claim, judgeClaims_eq, hback, hgrant, ite_self]

theorem exec_claim_granted {s : State} (hidle : s.tx.state = .idle) (hopen : s.arb.claimOpen = true)
    (hcan : canClaim s = true) : exec .claim s = .next (grant (closeClaims s)) := by
  rw [exec_claim, judgeClaims_eq, endBackoff_of_ne (by rw [hidle]; decide), if_pos ⟨hopen, hcan⟩]

/-! ### The lookup at a grant (R161) -/

theorem lookup_route (u : UnitNo) (s : State) : (lookup u s).1 = routeOf s.routes u := by
  unfold lookup routeOf
  cases placeOf s.routes u <;> rfl

/-- R161: a lookup moves the last-used index and nothing else. -/
theorem lookup_state (u : UnitNo) (s : State) : ∃ i, (lookup u s).2 = s.setRoutes { s.routes with lastUsed := i } := by
  unfold lookup
  cases placeOf s.routes u with
  | some i => exact ⟨some i, rfl⟩
  | none => exact ⟨s.routes.lastUsed, rfl⟩

/-- R161: on a hit the last-used index becomes the place of the unit's entry. -/
theorem lookup_hit {u : UnitNo} {s : State} (hinv : RouteInv s.routes) {i : Fin 64} {q : Route}
    (hq : s.routes.places.get i = some q) (hu : q.unit = u) : (lookup u s).2.routes.lastUsed = some i := by
  have hplace : placeOf s.routes u = some i :=
    placeOf_eq_some hq hu fun j hj x hx hxu => hj.ne (hinv j i x q hx hq (hxu.trans hu.symm))
  simp only [lookup, hplace, State.setRoutes_routes]

theorem lookup_miss {u : UnitNo} {s : State} (h : Unrouted u s.routes) : (lookup u s).2 = s := by
  simp only [lookup, placeOf_eq_none h]

/-! ### The grant of a receipt (R128) -/

section
variable (h : Holder) (kind : FrameKind) (phase : FramePhase) (grade : Grade) (body : List Byte) (s : State)

/-- R113: the frame that a grant puts on the line. -/
theorem putOnLine_frame : (putOnLine h kind phase grade body s).tx.frame = some
    { kind := kind, phase := phase, grade := grade, start := s.count, slots := slotsOf body.length grade
      endCount := s.count + slotsOf body.length grade, body := body } := rfl

@[simp] theorem putOnLine_txState : (putOnLine h kind phase grade body s).tx.state = .sending := rfl
@[simp] theorem putOnLine_arb : (putOnLine h kind phase grade body s).arb = { s.arb with holder := h, busy := true } := rfl
@[simp] theorem putOnLine_time : (putOnLine h kind phase grade body s).time = s.time := rfl
@[simp] theorem putOnLine_groups : (putOnLine h kind phase grade body s).groups = s.groups := rfl
@[simp] theorem putOnLine_schedule : (putOnLine h kind phase grade body s).schedule = s.schedule := rfl
@[simp] theorem putOnLine_disp : (putOnLine h kind phase grade body s).disp = s.disp := rfl
@[simp] theorem putOnLine_exch : (putOnLine h kind phase grade body s).exch = s.exch := rfl
@[simp] theorem putOnLine_routes : (putOnLine h kind phase grade body s).routes = s.routes := rfl
@[simp] theorem putOnLine_rx : (putOnLine h kind phase grade body s).rx = s.rx := rfl
@[simp] theorem putOnLine_ports : (putOnLine h kind phase grade body s).ports = s.ports := rfl
@[simp] theorem putOnLine_conf : (putOnLine h kind phase grade body s).conf = s.conf := rfl

end

/-- R128: the receipt list claims with its oldest receipt that is not on the line. -/
theorem receiptClaim_of_split {s : State} {before after : List Receipt} {r : Receipt}
    (h : s.rx.receipts = before ++ r :: after) (hbefore : ∀ q ∈ before, q.onLine = true) (hr : r.onLine = false) :
    receiptClaim s = some r := by
  rw [receiptClaim, h, List.find?_append, List.find?_eq_none.2 fun q hq => by simp [hbefore q hq]]
  simp [hr]

/-- R131: a receipt is found in the list by its unit and report number. -/
theorem map_isReceipt_of_split {f : Receipt → Receipt} {before after : List Receipt} {r : Receipt}
    (h : ∀ q ∈ before ++ after, ¬ (q.unit = r.unit ∧ q.number = r.number)) :
    (before ++ r :: after).map (fun q => if isReceipt r.unit r.number q then f q else q) = before ++ f r :: after := by
  have hself : isReceipt r.unit r.number r = true := by simp [isReceipt]
  have hother : ∀ l : List Receipt, (∀ q ∈ l, q ∈ before ++ after) →
      l.map (fun q => if isReceipt r.unit r.number q then f q else q) = l := fun l hl =>
    (List.map_congr_left fun q hq => if_neg (by simpa [isReceipt] using h q (hl q hq))).trans l.map_id
  rw [List.map_append, List.map_cons, hother before (fun q => List.mem_append_left _),
    hother after (fun q => List.mem_append_right _), if_pos hself]

/-- R112, R128: the grant of a receipt, with what its lookup gives and leaves. -/
theorem grantReceipt_eq {r : Receipt} {s : State} {i : Option (Fin 64)}
    (h : (lookup r.unit s).2 = s.setRoutes { s.routes with lastUsed := i }) :
    grantReceipt r s = putOnLine (.receipt r.unit r.number) .receipt (receiptPhase (routeOf s.routes r.unit)) r.grade
      (buildBody .receipt r.unit s.conf.station 0 r.path [r.number])
      (markReceipt r.unit r.number true (s.setRoutes { s.routes with lastUsed := i })) := by
  simp only [grantReceipt, h, lookup_route]

/-- Settles O44: the grounds for no grant are those of `canClaim` and of `grant_eq_self`; the receipt is the first claim. -/
theorem receiptIsGrantedFirst : Obligations.ReceiptIsGrantedFirst := by
  refine ⟨fun s hback => ⟨fun hclosed => ?judged, fun hground => ?noGrant⟩, fun s b hstate hb => ⟨?ended, ?waiting⟩, ?receipt⟩
  case judged =>
    rw [exec_claim, judgeClaims_eq, endBackoff_of_ne hback, if_neg (by simp [hclosed]), closeClaims_of_closed hclosed]
  case noGrant =>
    by_cases hcan : canClaim s = true
    · obtain ⟨hpresent, hstation, hidle, hquiet, hcarrier⟩ := (canClaim_iff s).1 hcan
      have hnone := hground.resolve_left (absurd hpresent) |>.resolve_left hstation |>.resolve_left (absurd hidle)
        |>.resolve_left (by simp [hquiet]) |>.resolve_left (by simp [hcarrier])
      obtain ⟨hreceipts, hready, hoffer⟩ := hnone
      exact exec_claim_of_no_claim (endBackoff_of_ne hback)
        (grant_eq_self hreceipts hready (offerIn_eq_none (closeClaims s) 4 hoffer))
    · exact exec_claim_of_not_canClaim (endBackoff_of_ne hback) (by simpa using hcan)
  case ended =>
    intro hle hpresent
    have hidle : (s.setTx { s.tx with state := .idle, backoffEnd := none }).tx.state ≠ .backoff := nofun
    rw [exec_claim, exec_claim, judgeClaims_eq, judgeClaims_eq, endBackoff_of_ne hidle,
      endBackoff_ended hstate hb ⟨hle, hpresent⟩]
  case waiting =>
    intro hwait
    refine exec_claim_of_not_canClaim (endBackoff_waiting hstate hb fun hend => ?_) ?_
    · exact hwait.elim (fun hlt => absurd hend.1 (Nat.not_le.2 hlt)) (absurd hend.2)
    · simp [canClaim, hstate]
  case receipt =>
    intro s before after r hopen hidle hcan hreceipts hbefore hr hother
    refine ⟨grantReceipt r (closeClaims s), ?_, ?_⟩
    · rw [exec_claim_granted hidle hopen hcan, grant, receiptClaim_of_split (s := closeClaims s) hreceipts hbefore hr]
    · obtain ⟨i, hlookup⟩ := lookup_state r.unit (closeClaims s)
      have hphase : receiptPhase (routeOf s.routes r.unit) = (match routeOf s.routes r.unit with
          | some q => .one q.phase
          | none => .all) := by cases routeOf s.routes r.unit <;> rfl
      have hmarked := map_isReceipt_of_split (f := fun q => { q with onLine := true }) hother
      rw [grantReceipt_eq hlookup]
      refine ⟨by simp [markReceipt, closeClaims], putOnLine_txState ..,
        by simp [markReceipt, closeClaims, hreceipts, hmarked],
        ⟨_, putOnLine_frame .., rfl, rfl, rfl, rfl, rfl, rfl, hphase⟩, by simp [markReceipt, closeClaims],
        fun hinv j q hq hu => ?_, fun hmiss => ?_, by simp [markReceipt, closeClaims]⟩
      · have hhit := lookup_hit (s := closeClaims s) hinv hq hu
        rw [hlookup] at hhit
        simpa [markReceipt] using hhit
      · have hsame := congrArg State.routes (lookup_miss (s := closeClaims s) hmiss)
        rw [hlookup] at hsame
        simpa [markReceipt, closeClaims] using hsame

end Sys2Proof.Machine
end

section
/-! ## Freed places and QUEUE SPACE (R65, R72) -/

namespace Sys2Proof.Machine

/-- R72: the model's test for room says what R72 does. -/
theorem orderRoom_iff (s : State) :
    orderRoom s = true ↔ s.disp.queue.countP isWork < 12 ∧ s.disp.queue.length < 16 := by
  simp only [orderRoom, placeFree, Bool.and_eq_true, decide_eq_true_eq]

/-- R72: the notice clears its port's mark, and is given where the mark is set. -/
theorem spaceNotice_disp (p : Port) (s : State) :
    (spaceNotice p s).disp = { s.disp with spaceMarks := s.disp.spaceMarks.set p false } := by
  unfold spaceNotice
  split
  · rfl
  · rename_i hmark
    have hclear : s.disp.spaceMarks.get p = false := by simpa using hmark
    have hsame : s.disp.spaceMarks.set p false = s.disp.spaceMarks := by rw [← hclear]; cases p <;> rfl
    rw [hsame]

theorem spaceNotice_port (p q : Port) (s : State) : (spaceNotice p s).port q =
    if q = p then (if s.disp.spaceMarks.get p = true then (s.port p).arrive s.count .queueSpace else s.port p)
    else s.port q := by
  unfold spaceNotice
  split
  · exact notify_port p q _ _
  · split
    · rename_i hq
      rw [hq]
    · rfl

theorem spaceNotice_groups (p : Port) (s : State) : (spaceNotice p s).groups = s.groups := by
  unfold spaceNotice
  split <;> rfl

theorem spaceNotice_count (p : Port) (s : State) : (spaceNotice p s).count = s.count := by
  unfold spaceNotice
  split <;> rfl

theorem queueSpace_of_no_room {s : State} (h : orderRoom s = false) : queueSpace s = s := by simp [queueSpace, h]

section
variable {s : State} (hroom : orderRoom s = true)
include hroom

theorem queueSpace_of_room : queueSpace s = spaceNotice .B (spaceNotice .A s) := by simp [queueSpace, hroom]

/-- R72: with room no mark is left set. -/
theorem queueSpace_disp : (queueSpace s).disp = { s.disp with spaceMarks := { a := false, b := false } } := by
  rw [queueSpace_of_room hroom, spaceNotice_disp, spaceNotice_disp]
  rfl

/-- R72: with room a port whose mark is set receives QUEUE SPACE, and nothing else reaches a port. -/
theorem queueSpace_port (q : Port) : (queueSpace s).port q =
    if s.disp.spaceMarks.get q = true then (s.port q).arrive s.count .queueSpace else s.port q := by
  rw [queueSpace_of_room hroom]
  cases q <;> simp [spaceNotice_port, spaceNotice_disp, spaceNotice_count, PerPort.get_set]

end

theorem queueSpace_groups (s : State) : (queueSpace s).groups = s.groups := by
  unfold queueSpace
  split
  · rw [spaceNotice_groups, spaceNotice_groups]
  · rfl

/-- The test for room changes of the Dispatcher the marks alone. -/
theorem queueSpace_queue (s : State) : (queueSpace s).disp.queue = s.disp.queue := by
  cases h : orderRoom s with
  | true => rw [queueSpace_disp h]
  | false => rw [queueSpace_of_no_room h]

theorem lowestDue_eq_none {s : State} (hdue : ∀ g, (s.group g).due = false) : lowestDue s = none :=
  List.find?_eq_none.2 fun g _ => by simp [hdue g]

/-- R65: with no group due a freed place is offered to none. -/
theorem offerPlaces_of_no_due {s : State} (hdue : ∀ g, (s.group g).due = false) (k n : Nat) : offerPlaces k n s = s := by
  cases k with
  | zero => rfl
  | succ k => simp only [offerPlaces, lowestDue_eq_none hdue, ite_self]

theorem afterFreed_of_no_due {s : State} (hdue : ∀ g, (s.group g).due = false) {n : Nat} (hn : n ≠ 0) :
    afterFreed n s = queueSpace s := by
  rw [afterFreed, if_neg hn, offerPlaces_of_no_due hdue]

/-! ### What a request, a check and an offer leave alone of the orders and fences -/

/-- The orders and fences of the queue, in their order, and the QUEUE SPACE marks stand as they stood. -/
structure LeavesWork (s t : State) : Prop where
  work : t.disp.queue.filter isWork = s.disp.queue.filter isWork
  marks : t.disp.spaceMarks = s.disp.spaceMarks

theorem LeavesWork.of_eq {s t : State} (hq : t.disp.queue = s.disp.queue) (hm : t.disp.spaceMarks = s.disp.spaceMarks) :
    LeavesWork s t := ⟨by rw [hq], hm⟩

theorem LeavesWork.rfl' {s : State} : LeavesWork s s := .of_eq rfl rfl

theorem LeavesWork.trans {s t u : State} (x : LeavesWork s t) (y : LeavesWork t u) : LeavesWork s u :=
  ⟨y.work.trans x.work, y.marks.trans x.marks⟩

theorem clearNext_leavesWork (g : GroupNo) (s : State) : LeavesWork s (clearNext g s) := by
  unfold clearNext
  split <;> exact .of_eq rfl rfl

theorem applyNext_leavesWork (g : GroupNo) (s : State) : LeavesWork s (applyNext g s) := by
  unfold applyNext
  split
  · split <;> exact .of_eq rfl rfl
  · exact .rfl'

theorem moveMark_leavesWork (g : GroupNo) (old : Option Count) (m : Mark) (s : State) : LeavesWork s (moveMark g old m s) := by
  rw [moveMark_eq]
  exact .of_eq rfl rfl

theorem abandonFor_leavesWork (g : GroupNo) (s : State) : LeavesWork s (abandonFor g s) := by
  unfold abandonFor
  split
  · split <;> exact .of_eq rfl rfl
  · exact .rfl'

theorem notifyOrigin_leavesWork (p : Option Port) (b : NoticeBody) (s : State) : LeavesWork s (notifyOrigin p b s) := by
  cases p <;> exact .of_eq rfl rfl

theorem reportCutShort_leavesWork (a : Ann) (s : State) : LeavesWork s (reportCutShort a s) := by
  have hclear (u : State) : LeavesWork u (clearStated a.group u) := .of_eq rfl rfl
  exact ((((abandonFor_leavesWork _ _).trans (notifyOrigin_leavesWork _ _ _)).trans (hclear _)).trans
    (clearNext_leavesWork _ _)).trans (moveMark_leavesWork _ _ _ _)

/-- R61: what is cut short is no order and no fence. -/
theorem cutShort_leavesWork (g : GroupNo) (s : State) : LeavesWork s (cutShort g s).1 := by
  have hfold (gone : List Entry) (u : State) : LeavesWork u (gone.foldl (fun s e =>
      match e with
      | .ann a => reportCutShort a s
      | _ => s) u) := by
    induction gone generalizing u with
    | nil => exact .rfl'
    | cons e es ih =>
      refine LeavesWork.trans ?_ (ih _)
      cases e with
      | ann a => exact reportCutShort_leavesWork a u
      | order o => exact .rfl'
      | fence p => exact .rfl'
  refine LeavesWork.trans (t := setQueue (s.disp.queue.filter fun e => !isInFlight g e) s) ⟨?_, rfl⟩ (hfold _ _)
  rw [setQueue_queue, List.filter_filter]
  refine List.filter_congr fun e _ => ?_
  cases e <;> simp [isWork, isInFlight]

/-- R62: a merge changes an announcement entry in its place. -/
theorem mergeIn_filter_isWork {r : AnnReq} {q : List Entry} {x : List Entry × Option Count} (hm : mergeIn r q = some x) :
    x.1.filter isWork = q.filter isWork := by
  induction q generalizing x with
  | nil => cases hm
  | cons e es ih =>
    by_cases hn : isNotStarted r.group e = true
    · cases e with
      | ann a =>
        simp only [mergeIn, hn, if_true, Option.some.injEq] at hm
        subst hm
        rfl
      | order o => cases hn
      | fence p => cases hn
    · obtain ⟨y, hy, rfl⟩ : ∃ y, mergeIn r es = some y ∧ (e :: y.1, y.2) = x := by
        cases e <;> simpa [mergeIn, hn] using hm
      simp only [List.filter_cons, ih hy]

theorem place_leavesWork (r : AnnReq) (n : Nat) (s : State) : LeavesWork s (place r n s).state := by
  cases hm : mergeIn r (s.disp.queue.drop (lastSegmentStart s.disp.queue)) with
  | some x =>
    rw [place_merge rfl (show _ = some (x.1, x.2) from hm)]
    refine LeavesWork.trans (t := setQueue (s.disp.queue.take (lastSegmentStart s.disp.queue) ++ x.1) s) ⟨?_, rfl⟩
      (moveMark_leavesWork _ _ _ _)
    rw [setQueue_queue, List.filter_append, mergeIn_filter_isWork hm, ← List.filter_append, List.take_append_drop]
  | none =>
    by_cases hroom : s.disp.queue.length < 16
    · rw [place_append hm hroom]
      exact ⟨by simp [isWork], rfl⟩
    · rw [place_refused hm (Nat.not_lt.1 hroom)]
      dsimp only
      split <;> exact .of_eq rfl rfl

theorem check_leavesWork (g : GroupNo) (s : State) : LeavesWork s (check g s).state := by
  unfold check request
  simp only
  split
  · exact applyNext_leavesWork g s
  · split
    · refine (applyNext_leavesWork g s).trans ?_
      split
      · exact .rfl'
      · exact (cutShort_leavesWork _ _).trans (place_leavesWork _ _ _)
    · exact applyNext_leavesWork g s

/-- R65: offers of freed places make announcement entries alone. -/
theorem offerPlaces_leavesWork (k n : Nat) (s : State) : LeavesWork s (offerPlaces k n s) := by
  induction k generalizing n s with
  | zero => exact .rfl'
  | succ k ih =>
    unfold offerPlaces
    split
    · exact .rfl'
    · split
      · exact .rfl'
      · rename_i g _
        have hdue : LeavesWork s (setDue g false s) := .of_eq rfl rfl
        exact (hdue.trans (check_leavesWork _ _)).trans (ih _ _)

theorem afterFreed_work (n : Nat) (s : State) :
    (afterFreed n s).disp.queue.filter isWork = s.disp.queue.filter isWork := by
  unfold afterFreed
  split
  · rfl
  · rw [queueSpace_queue, (offerPlaces_leavesWork 64 n s).work]

/-- No small step of the Dispatcher makes an order or a fence. -/
theorem QueueSteps.work_mem {s t : State} (h : QueueSteps s t) {e : Entry} (he : e ∈ t.disp.queue) (hw : isWork e = true) :
    e ∈ s.disp.queue := by
  refine QueueSteps.keeps (P := fun u => e ∈ u.disp.queue → e ∈ s.disp.queue) ?_ h id he
  intro u v hstep hu hv
  cases hstep with
  | queue q _ hfrom =>
    rcases hfrom.fresh e hv with hmem | ⟨a, rfl, -⟩
    · exact hu hmem
    · cases hw
  | abandon g _ =>
    refine hu ?_
    unfold abandonFor at hv
    split at hv
    · split at hv <;> exact hv
    · exact hv
  | _ => exact hu hv

end Sys2Proof.Machine
end

section
/-! ## Moves and fence departures, one by one (R73, R75, R138) -/

namespace Sys2Proof.Machine

/-! ### The tag an order takes (R138) -/

/-- R138: the tag taken is the first from the counter on that no live exchange holds, unless `n` values are held. -/
theorem freeTag_spec (n : Nat) (t : Tag) (xs : List Exchange) : ∃ k ≤ n, freeTag n t xs = t + BitVec.ofNat 8 k
    ∧ (∀ j < k, ∃ x ∈ xs, x.tag = t + BitVec.ofNat 8 j) ∧ (k < n → ∀ x ∈ xs, x.tag ≠ t + BitVec.ofNat 8 k) := by
  induction n generalizing t with
  | zero => exact ⟨0, le_refl 0, by simp [freeTag], by simp, by simp⟩
  | succ n ih =>
    by_cases hheld : xs.any (fun x => decide (x.tag = t)) = true
    · obtain ⟨k, hk, htag, hbefore, hfree⟩ := ih (t + 1)
      have hshift (j : Nat) : t + 1 + BitVec.ofNat 8 j = t + BitVec.ofNat 8 (j + 1) := by
        rw [BitVec.ofNat_add, BitVec.add_assoc, BitVec.add_comm 1]
        rfl
      refine ⟨k + 1, by omega, ?_, fun j hj => ?_, fun hlt => ?_⟩
      · rw [freeTag, if_pos hheld, htag, hshift]
      · cases j with
        | zero =>
          obtain ⟨x, hx, hxt⟩ := List.any_eq_true.1 hheld
          exact ⟨x, hx, by simpa using hxt⟩
        | succ j => exact hshift j ▸ hbefore j (by omega)
      · exact hshift k ▸ hfree (by omega)
    · refine ⟨0, by omega, ?_, by simp, fun _ x hx hxt => hheld ?_⟩
      · rw [freeTag, if_neg hheld, BitVec.add_zero]
      · exact List.any_eq_true.2 ⟨x, hx, by simpa using hxt⟩

/-- Tags one after another are distinct until the counter wraps. -/
theorem nodup_tags (t : Tag) {k : Nat} (hk : k ≤ 256) : ((List.range k).map fun j => t + BitVec.ofNat 8 j).Nodup := by
  refine List.Nodup.map_on (fun i hi j hj h => ?_) List.nodup_range
  have hnat : (BitVec.ofNat 8 i).toNat = (BitVec.ofNat 8 j).toNat := congrArg BitVec.toNat ((BitVec.add_right_inj t).1 h)
  rw [List.mem_range] at hi hj
  simp only [BitVec.toNat_ofNat] at hnat
  omega

/-- R138: with fewer than 8 exchanges a free tag is found within 8 values. -/
theorem freeTag_within {t : Tag} {xs : List Exchange} (h8 : xs.length < 8) : ∃ k < 8, freeTag 256 t xs = t + BitVec.ofNat 8 k
    ∧ (∀ j < k, ∃ x ∈ xs, x.tag = t + BitVec.ofNat 8 j) ∧ ∀ x ∈ xs, x.tag ≠ t + BitVec.ofNat 8 k := by
  obtain ⟨k, hk, htag, hbefore, hfree⟩ := freeTag_spec 256 t xs
  have hsub : ((List.range k).map fun j => t + BitVec.ofNat 8 j) ⊆ xs.map (·.tag) := by
    intro u hu
    obtain ⟨j, hj, rfl⟩ := List.mem_map.1 hu
    obtain ⟨x, hx, hxt⟩ := hbefore j (List.mem_range.1 hj)
    exact List.mem_map.2 ⟨x, hx, hxt⟩
  have hlen := (List.subperm_of_subset (nodup_tags t hk) hsub).length_le
  rw [List.length_map, List.length_range, List.length_map] at hlen
  exact ⟨k, by omega, htag, hbefore, hfree (by omega)⟩

/-! ### One departure -/

/-- Past announcement entries an order is movable at its place in the window. -/
theorem movable_append {k : Nat} {q : List Entry} (o : OrderEntry) (hq : ∀ e ∈ q, isWork e = false) (hk : q.length < k) :
    movable k (q ++ [.order o]) = some q.length := by
  induction q generalizing k with
  | nil =>
    cases k with
    | zero => cases hk
    | succ k => rfl
  | cons e es ih =>
    cases k with
    | zero => cases hk
    | succ k =>
      have htail := ih (k := k) (fun x hx => hq x (List.mem_cons_of_mem _ hx)) (by simpa using hk)
      cases e with
      | ann a => simp [movable, htail]
      | order _ => cases hq _ List.mem_cons_self
      | fence _ => cases hq _ List.mem_cons_self

/-- R73: an order behind announcement entries alone moves, with an exchange free. -/
theorem advance1_order {s : State} {q : List Entry} {o : OrderEntry} (hq : s.disp.queue = q ++ [.order o])
    (hann : ∀ e ∈ q, isWork e = false) (hlen : q.length < 4) (h8 : s.exch.table.length < 8) :
    advance1 s = some (afterFreed 1 (moveOrder o (setQueue q s))) := by
  have hget : (q ++ [Entry.order o])[q.length]? = some (.order o) := by simp
  have herase : (q ++ [Entry.order o]).eraseIdx q.length = q := by simp [List.eraseIdx_append_of_length_le]
  simp only [advance1, h8, if_true, hq, movable_append o hann hlen, hget, herase]

/-- R75: a fence at the head leaves where no live exchange has its mark. -/
theorem advance1_fence {s : State} {p : Port} {es : List Entry} (hq : s.disp.queue = .fence p :: es)
    (hmark : ∀ x ∈ s.exch.table, x.fenceMark = false) : advance1 s = some (afterFreed 1 (setQueue es s)) := by
  have hany : s.exch.table.any (·.fenceMark) = false := by simpa using hmark
  have hwindow : (if s.exch.table.length < 8 then movable 4 (.fence p :: es) else none) = none := ite_self none
  simp only [advance1, hq, hwindow, hany, Bool.false_eq_true, if_false]

theorem advanceN_succ {s t : State} (h : advance1 s = some t) (k : Nat) : advanceN (k + 1) s = advanceN k t := by
  simp only [advanceN, h]

theorem advanceN_idle {s : State} (m : MovesInv s) (k : Nat) : advanceN k s = s := by
  cases k with
  | zero => rfl
  | succ k => simp only [advanceN, (advance1_none_iff s).2 m]

/-! ### When none is due -/

/-- R73: with the exchange table full and no fence held, nothing is due. -/
theorem movesInv_of_full {s : State} (h8 : 8 ≤ s.exch.table.length) (hfence : ∀ e ∈ s.disp.queue, isFence e = false) :
    MovesInv s := by
  refine ⟨fun hlt => absurd hlt (Nat.not_lt.2 h8), fun p behind hq => ?_⟩
  cases (hfence (.fence p) (by simp [hq]) : true = false)

/-- An order or a fence at the tail lets nothing become due where an order there is out of the window or behind a fence. -/
theorem MovesInv.append_entry {s t : State} {e : Entry} (m : MovesInv s) (hq : t.disp.queue = s.disp.queue ++ [e])
    (hne : s.disp.queue ≠ []) (hlen : t.exch.table.length = s.exch.table.length)
    (hmark : (∃ x ∈ s.exch.table, x.fenceMark = true) → ∃ x ∈ t.exch.table, x.fenceMark = true)
    (horder : ∀ o, e = .order o → 4 ≤ s.disp.queue.length ∨ ∃ f ∈ s.disp.queue, isFence f = true) : MovesInv t := by
  refine ⟨fun h8 ahead o behind hsplit hfour => ?_, fun p behind hhead => ?_⟩
  · rw [hq] at hsplit
    rcases List.eq_nil_or_concat' behind with rfl | ⟨front, x, rfl⟩
    · obtain ⟨rfl, hx⟩ := List.append_inj' hsplit rfl
      exact (horder o (List.singleton_inj.1 hx)).resolve_left (Nat.not_le.2 hfour)
    · rw [← List.cons_append, ← List.append_assoc] at hsplit
      exact m.orders (hlen ▸ h8) ahead o front (List.append_inj' hsplit rfl).1 hfour
  · cases hs : s.disp.queue with
    | nil => exact absurd hs hne
    | cons x xs =>
      rw [hq, hs, List.cons_append] at hhead
      obtain ⟨rfl, -⟩ := List.cons.inj hhead
      exact hmark (m.fence p xs hs)

/-- R73: with an exchange free and fewer than 4 entries, none of them a fence, an order would have moved. -/
theorem MovesInv.noWork {s : State} (m : MovesInv s) (hfence : ∀ e ∈ s.disp.queue, isFence e = false)
    (hlen : s.disp.queue.length < 4) (h8 : s.exch.table.length < 8) : ∀ e ∈ s.disp.queue, isWork e = false := by
  intro e he
  cases e with
  | ann a => rfl
  | fence p => cases hfence _ he
  | order o =>
    obtain ⟨ahead, behind, hsplit⟩ := List.append_of_mem he
    have hahead : ahead.length < 4 := by
      rw [hsplit, List.length_append] at hlen
      omega
    obtain ⟨f, hf, hisFence⟩ := m.orders h8 ahead o behind hsplit hahead
    rw [hfence f (hsplit ▸ List.mem_append_left _ hf)] at hisFence
    cases hisFence

end Sys2Proof.Machine
end

section
/-! ## ORDER and FENCE (R58, R71 to R75, R137, R138) -/

namespace Sys2Proof.Machine

/-! ### What the requests of the Dispatcher share -/

theorem taken_keeps (p : Port) (s : State) : Keeps s (taken p s) :=
  Keeps.of_updPort p _ s fun _ => ⟨rfl, rfl, rfl, rfl, rfl, rfl⟩

theorem setQueue_keeps (q : List Entry) (s : State) : Keeps s (setQueue q s) :=
  { Keeps.rfl' s with }

theorem setExch_keeps (x : ExchangeEngine) (s : State) : Keeps s (s.setExch x) :=
  { Keeps.rfl' s with }

@[simp] theorem reply_disp (p : Port) (k : ReqKind) (o : ReqOutcome) (b : ResponseBody) (s : State) :
    (reply p k o b s).disp = s.disp := rfl
@[simp] theorem reply_exch (p : Port) (k : ReqKind) (o : ReqOutcome) (b : ResponseBody) (s : State) :
    (reply p k o b s).exch = s.exch := rfl

/-- R72: a refusal with FULL changes the port and its mark alone. -/
theorem refuseFull_taken (p : Port) (k : ReqKind) (s : State) : refuseFull p k (taken p s)
    = answer p k .full none .empty id (s.setDisp { s.disp with spaceMarks := s.disp.spaceMarks.set p true }) := by
  rw [← reply_taken_answer]
  rfl

/-- With no departure due, the end of an event stands by the Dispatcher and the Exchange Engine. -/
theorem closeEvent_zero_same {s : State} (m : MovesInv s) :
    (closeEvent 0 s).disp = s.disp ∧ (closeEvent 0 s).exch = s.exch := by
  rw [closeEvent_zero_of_movesInv m]
  exact ⟨settleWaits_disp s, settleWaits_exch s⟩

theorem closeEvent_zero_eq (s : State) : closeEvent 0 s = settleWaits (advanceN s.disp.queue.length s) := rfl

/-! ### ORDER (R71) -/

theorem readOptByte_length {bs rest : List Byte} {x : Option Byte} (h : readOptByte bs = some (x, rest)) :
    bs.length ≤ rest.length + 2 := by
  cases bs with
  | nil => cases h
  | cons b bs =>
    unfold readOptByte at h
    dsimp only at h
    split at h <;> cases h <;> simp

/-- The fields of an ORDER are within a request's length (R173). -/
theorem readOrder_length {fields : List Byte} {f : OrderFields} (h : readOrder fields = some f) : fields.length ≤ 70 := by
  match fields, h with
  | u2 :: u1 :: u0 :: k :: rest, h =>
    have htail : rest.length ≤ 5 := by
      cases hread : readOrderTail rest with
      | none => simp [readOrder, hread] at h
      | some x =>
        unfold readOrderTail at hread
        split at hread
        · rename_i data ref rest' hdata
          split at hread
          · rename_i reps hreps
            have hfirst := readOptByte_length hdata
            have hsecond := readOptByte_length hreps
            simp only [List.length_cons, List.length_nil] at hfirst hsecond
            omega
          · cases hread
        · cases hread
    simp only [List.length_cons]
    omega

/-- R71: the state in which an ORDER of a port, taken, has joined the queue. -/
def orderJoined (p : Port) (f : OrderFields) (s : State) : State :=
  setQueue (s.disp.queue ++ [.order (orderEntry p f)]) (taken p s)

theorem orderJoined_keeps (p : Port) (f : OrderFields) (s : State) : Keeps s (orderJoined p f s) :=
  (taken_keeps p s).trans (setQueue_keeps _ _)

section
variable {p : Port} {fields : List Byte} {f : OrderFields} {s : State}

theorem exec_order_room (h : PortIdle p s) (hf : readOrder fields = some f) (hroom : orderRoom s = true) :
    exec (.order p fields) s
      = .next (reply p .order (doneOr (repeatIgnored f.repeats)) .empty (closeEvent 0 (orderJoined p f s))) := by
  have hroom' : orderRoom (taken p s) = true := hroom
  change Host.Outcome.next (requestStep p .order fields (actOrder p fields) s) = _
  rw [requestStep_idle h (readOrder_length hf)]
  simp only [actOrder, hf, hroom', if_true]
  rfl

theorem exec_order_full (h : PortIdle p s) (hf : readOrder fields = some f) (hroom : orderRoom s = false) :
    exec (.order p fields) s = .next (answer p .order .full none .empty id
      (s.setDisp { s.disp with spaceMarks := s.disp.spaceMarks.set p true })) := by
  have hroom' : orderRoom (taken p s) = false := hroom
  change Host.Outcome.next (requestStep p .order fields (actOrder p fields) s) = _
  rw [requestStep_idle h (readOrder_length hf), ← refuseFull_taken]
  simp [actOrder, hf, hroom']

theorem doneOr_repeatIgnored (r : Option Nat) :
    doneOr (repeatIgnored r) = if r = none ∨ r = some 0 then .done else .adjusted := by
  cases r with
  | none => rfl
  | some n => by_cases hn : n = 0 <;> simp [doneOr, repeatIgnored, hn]

/-- An order that no move takes on stands at the tail. -/
theorem orderJoined_stands (m : MovesInv (orderJoined p f s)) :
    (closeEvent 0 (orderJoined p f s)).disp.queue = s.disp.queue ++ [.order (orderEntry p f)]
      ∧ (closeEvent 0 (orderJoined p f s)).exch = s.exch := by
  obtain ⟨hdisp, hexch⟩ := closeEvent_zero_same m
  exact ⟨by rw [hdisp]; rfl, hexch⟩

end

/-- R73, R138: an order behind announcement entries alone moves at the end of the event, and no other departure follows. -/
theorem closeEvent_moves {s : State} {q : List Entry} {o : OrderEntry} (hq : s.disp.queue = q ++ [.order o])
    (hann : ∀ e ∈ q, isWork e = false) (hlen : q.length < 4) (h8 : s.exch.table.length < 8) :
    closeEvent 0 s = settleWaits (afterFreed 1 (moveOrder o (setQueue q s))) := by
  have hidle : MovesInv (afterFreed 1 (moveOrder o (setQueue q s))) := by
    refine movesInv_of_noWork fun e he => ?_
    by_contra hwork
    have hmem : e ∈ q := (afterFreed_steps 1 _).work_mem he (by simpa using hwork)
    exact hwork (hann e hmem)
  rw [closeEvent_zero_eq, hq, List.length_append, List.length_singleton, advanceN_succ (advance1_order hq hann hlen h8),
    advanceN_idle hidle]

/-- Settles O36: what stands is kept by `MovesInv`, what moves is `closeEvent_moves`, and a departure with no group due is the
test for room alone. -/
theorem orderJoinsQueueOrTable : Obligations.OrderJoinsQueueOrTable := by
  refine ⟨fun p fields f s h hf => ⟨fun hroom => ?room, fun hroom => ?full⟩, ?departure⟩
  case full => exact exec_order_full h hf (by simpa using mt (orderRoom_iff s).1 hroom)
  case room =>
    refine ⟨_, exec_order_room h hf ((orderRoom_iff s).2 hroom), ?answered, ?keeps, fun h8 hfence => ?tableFull,
      fun m hstays => ?stays, fun m hfence hlen h8 => ?moves⟩
    case answered => exact doneOr_repeatIgnored f.repeats ▸ reply_answered ..
    case keeps => exact ((orderJoined_keeps p f s).trans (closeEvent_keeps 0 _)).trans (reply_keeps ..)
    case tableFull =>
      refine orderJoined_stands (movesInv_of_full h8 fun e he => ?_)
      rcases List.mem_append.1 he with he | he
      · exact hfence e he
      · rw [List.mem_singleton.1 he]
        rfl
    case stays =>
      have hne : s.disp.queue ≠ [] := by
        rintro hnil
        rcases hstays with ⟨e, he, -⟩ | ⟨-, hlen⟩
        · simp [hnil] at he
        · simp [hnil] at hlen
      exact orderJoined_stands (m.append_entry (e := .order (orderEntry p f)) rfl hne rfl id
        fun _ _ => hstays.symm.imp_left And.right)
    case moves =>
      have hclose : closeEvent 0 (orderJoined p f s) = _ :=
        closeEvent_moves rfl (m.noWork hfence hlen h8) hlen h8
      have hnoFence : s.disp.queue.any isFence = false := by simpa using hfence
      refine ⟨fun hdue => ?_, ?_⟩
      · have hdue' : ∀ g,
            ((moveOrder (orderEntry p f) (setQueue s.disp.queue (orderJoined p f s))).group g).due = false := hdue
        rw [reply_disp, hclose, settleWaits_disp, afterFreed_of_no_due hdue' one_ne_zero, queueSpace_queue]
        rfl
      · obtain ⟨k, hk, htag, hbefore, hfree⟩ := freeTag_within (t := s.exch.tagCounter) h8
        refine ⟨k, _, hk, rfl, hbefore, hfree, ?_⟩
        rw [reply_exch, hclose, settleWaits_exch, afterFreed_exch, ← htag]
        exact ⟨rfl, rfl, congrArg (fun b => s.exch.table ++ [newExchange _ _ b s.conf.retryLimit]) hnoFence⟩
  case departure =>
    rintro n s t hn hdue rfl
    rw [afterFreed_of_no_due hdue hn, ← orderRoom_iff]
    refine ⟨fun hroom => ?_, fun hroom => queueSpace_of_no_room (by simpa using hroom)⟩
    have hdisp := queueSpace_disp hroom
    refine ⟨by rw [hdisp], by rw [hdisp], queueSpace_groups s, queueSpace_exch s,
      fun q => ⟨?_, fun hmark => ?_, fun hmark => ?_⟩⟩
    · rw [hdisp]
      cases q <;> rfl
    · intro hshed hlen
      rw [queueSpace_port hroom, if_pos hmark, arrive_of_room hshed hlen]
      exact ⟨[], rfl⟩
    · rw [queueSpace_port hroom, if_neg (by simp [hmark])]

/-! ### FENCE (R74) -/

/-- R74: the state in which a FENCE of a port, taken, has joined the queue and has marked every live exchange. -/
def fenceJoined (p : Port) (s : State) : State := markFences (setQueue (s.disp.queue ++ [.fence p]) (taken p s))

theorem fenceJoined_keeps (p : Port) (s : State) : Keeps s (fenceJoined p s) :=
  ((taken_keeps p s).trans (setQueue_keeps _ _)).trans (setExch_keeps _ _)

theorem fenceJoined_queue (p : Port) (s : State) : (fenceJoined p s).disp.queue = s.disp.queue ++ [.fence p] := rfl

theorem fenceJoined_exch (p : Port) (s : State) : (fenceJoined p s).exch
    = { s.exch with table := s.exch.table.map fun x => { x with fenceMark := true } } := rfl

section
variable {p : Port} {s : State} (h : PortIdle p s)
include h

theorem exec_fence_behind_own (hlast : s.disp.queue.getLast? = some (.fence p)) :
    exec (.fence p []) s = .next (answer p .fence .done none .empty id s) := by
  have hlast' : (taken p s).disp.queue.getLast? = some (.fence p) := hlast
  change Host.Outcome.next (requestStep p .fence [] (actFence p []) s) = _
  rw [requestStep_idle h (by simp), ← reply_taken_answer]
  simp only [actFence, readNothing, hlast', if_true]

theorem exec_fence_room (hlast : s.disp.queue.getLast? ≠ some (.fence p)) (hroom : orderRoom s = true) :
    exec (.fence p []) s = .next (reply p .fence .done .empty (closeEvent 0 (fenceJoined p s))) := by
  have hlast' : (taken p s).disp.queue.getLast? ≠ some (.fence p) := hlast
  have hroom' : orderRoom (taken p s) = true := hroom
  change Host.Outcome.next (requestStep p .fence [] (actFence p []) s) = _
  rw [requestStep_idle h (by simp)]
  simp only [actFence, readNothing, if_neg hlast', hroom', if_true]
  rfl

theorem exec_fence_full (hlast : s.disp.queue.getLast? ≠ some (.fence p)) (hroom : orderRoom s = false) :
    exec (.fence p []) s = .next (answer p .fence .full none .empty id
      (s.setDisp { s.disp with spaceMarks := s.disp.spaceMarks.set p true })) := by
  have hlast' : (taken p s).disp.queue.getLast? ≠ some (.fence p) := hlast
  have hroom' : orderRoom (taken p s) = false := hroom
  change Host.Outcome.next (requestStep p .fence [] (actFence p []) s) = _
  rw [requestStep_idle h (by simp), ← refuseFull_taken]
  simp only [actFence, readNothing, if_neg hlast', hroom', Bool.false_eq_true, if_false]

end

theorem exists_fenceJoined_mark {p : Port} {s : State} {x : Exchange} (hx : x ∈ s.exch.table) :
    ∃ y ∈ (fenceJoined p s).exch.table, y.fenceMark = true :=
  ⟨_, List.mem_map_of_mem hx, rfl⟩

/-- R74: behind other entries a fence stays. -/
theorem movesInv_fenceJoined {p : Port} {s : State} (m : MovesInv s) (hne : s.disp.queue ≠ []) :
    MovesInv (fenceJoined p s) :=
  m.append_entry (fenceJoined_queue p s) hne (by simp [fenceJoined_exch]) (fun ⟨_, hx, _⟩ => exists_fenceJoined_mark hx) nofun

/-- R75: alone in the queue a fence stays while an exchange lives. -/
theorem movesInv_fenceJoined_alone {p : Port} {s : State} (hq : s.disp.queue = []) (hlive : s.exch.table ≠ []) :
    MovesInv (fenceJoined p s) := by
  have hqueue : (fenceJoined p s).disp.queue = [.fence p] := by rw [fenceJoined_queue, hq, List.nil_append]
  refine ⟨fun _ ahead o behind hsplit _ => ?_, fun _ _ _ => ?_⟩
  · have hmem : Entry.order o ∈ [Entry.fence p] := by rw [← hqueue, hsplit]; simp
    cases List.mem_singleton.1 hmem
  · obtain ⟨x, hx⟩ := List.exists_mem_of_ne_nil _ hlive
    exact exists_fenceJoined_mark hx

/-- R75: a fence alone in the queue leaves at once with no live exchange. -/
theorem closeEvent_fence_leaves {p : Port} {s : State} (hq : s.disp.queue = []) (hlive : s.exch.table = []) :
    closeEvent 0 (fenceJoined p s) = settleWaits (afterFreed 1 (setQueue [] (fenceJoined p s))) := by
  have hqueue : (fenceJoined p s).disp.queue = [.fence p] := by rw [fenceJoined_queue, hq, List.nil_append]
  have hleaves := advance1_fence hqueue (by simp [fenceJoined_exch, hlive])
  rw [closeEvent_zero_eq, hqueue, List.length_singleton, advanceN_succ hleaves]
  rfl

/-- Settles O37: the event of a FENCE ends no exchange, and departs with a fence only alone at the head with none marked. -/
theorem fenceMarksTheLiveExchanges : Obligations.FenceMarksTheLiveExchanges := by
  refine fun p s h => ⟨exec_fence_behind_own h, fun hlast hroom => ?room, fun hlast hroom => ?full⟩
  case full => exact exec_fence_full h hlast (by simpa using mt (orderRoom_iff s).1 hroom)
  case room =>
    refine ⟨_, exec_fence_room h hlast ((orderRoom_iff s).2 hroom), reply_answered .., ?keeps, fun x hx => ?marked,
      fun hne m => ?behind, fun hq hlive => ?waits, fun hq hlive => ?leaves⟩
    case keeps => exact ((fenceJoined_keeps p s).trans (closeEvent_keeps 0 _)).trans (reply_keeps ..)
    case marked =>
      obtain ⟨⟨more, htable, -⟩, -⟩ := closeEvent_exchGrows 0 (fenceJoined p s)
      rw [reply_exch, htable]
      exact List.mem_append_left _ (List.mem_map_of_mem hx)
    case behind =>
      obtain ⟨hdisp, hexch⟩ := closeEvent_zero_same (movesInv_fenceJoined m hne)
      rw [reply_disp, reply_exch, hdisp, hexch]
      exact ⟨rfl, rfl⟩
    case waits =>
      obtain ⟨hdisp, -⟩ := closeEvent_zero_same (movesInv_fenceJoined_alone hq hlive)
      rw [reply_disp, hdisp, fenceJoined_queue, hq, List.nil_append]
    case leaves =>
      intro e he
      rw [reply_disp, closeEvent_fence_leaves hq hlive, settleWaits_disp] at he
      by_contra hfence
      have hwork : isWork e = true := by cases e <;> simp_all [isFence, isWork]
      cases (afterFreed_steps 1 _).work_mem he hwork

end Sys2Proof.Machine
end

section
/-! ## CANCL (R76, R153, R155, R156) -/

namespace Sys2Proof.Machine

/-! ### A notice that a port holds unless its queue sheds -/

/-- The port holds the notice, said where its queue sheds nothing (R181). -/
def HoldsNotice (p : Port) (n : Notice) (s : State) : Prop := (s.port p).shedding = false → n ∈ (s.port p).notices

theorem HoldsNotice.grow {p : Port} {n : Notice} {s t : State} (h : HoldsNotice p n s) (g : NoticesGrow p s t) :
    HoldsNotice p n t := by
  intro hshed
  obtain ⟨hbefore, more, hmore⟩ := g hshed
  exact hmore ▸ List.mem_append_left _ (h hbefore)

theorem HoldsNotice.steps {p : Port} {n : Notice} {s t : State} (h : HoldsNotice p n s) (x : QueueSteps s t) :
    HoldsNotice p n t := h.grow (x.noticesGrow p)

theorem holdsNotice_of_arrive {p : Port} {n : Count} {b : NoticeBody} {c : PortCtl} {t : State}
    (h : t.port p = c.arrive n b) : HoldsNotice p { count := n, body := b } t := by
  intro hshed
  rw [h] at hshed ⊢
  rw [(arrive_of_not_shedding hshed).2]
  exact List.mem_append_right _ (List.mem_singleton_self _)

theorem notify_holdsNotice (p : Port) (b : NoticeBody) (s : State) :
    HoldsNotice p { count := s.count, body := b } (notify p b s) :=
  holdsNotice_of_arrive ((notify_port p p b s).trans (if_pos rfl))

theorem reply_noticesGrow (p q : Port) (k : ReqKind) (o : ReqOutcome) (b : ResponseBody) (s : State) :
    NoticesGrow q s (reply p k o b s) := by
  have hport : (reply p k o b s).port q = if q = p then _ else s.port q := updPort_port p q _ s
  refine .of_eq ?_ ?_ <;>
  · rw [hport]
    split
    · rename_i hq
      subst hq
      rfl
    · rfl

theorem QueueSteps.count {s t : State} (h : QueueSteps s t) : t.count = s.count := congrArg (·.count) h.frame.time

/-! ### QUEUE SPACE marks that stay clear (R72) -/

/-- No QUEUE SPACE mark is set between the two states. -/
def MarksFall (s t : State) : Prop := ∀ q, s.disp.spaceMarks.get q = false → t.disp.spaceMarks.get q = false

theorem MarksFall.of_eq {s t : State} (h : t.disp.spaceMarks = s.disp.spaceMarks) : MarksFall s t := fun _ hq => h ▸ hq

theorem MarksFall.trans {s t u : State} (x : MarksFall s t) (y : MarksFall t u) : MarksFall s u := fun q hq => y q (x q hq)

theorem queueSpace_marksFall (s : State) : MarksFall s (queueSpace s) := by
  cases hroom : orderRoom s with
  | true =>
    intro q _
    rw [queueSpace_disp hroom]
    cases q <;> rfl
  | false => rw [queueSpace_of_no_room hroom]; exact .of_eq rfl

theorem afterFreed_marksFall (n : Nat) (s : State) : MarksFall s (afterFreed n s) := by
  unfold afterFreed
  split
  · exact .of_eq rfl
  · exact (MarksFall.of_eq (offerPlaces_leavesWork 64 n s).marks).trans (queueSpace_marksFall _)

theorem advanceN_marksFall (k : Nat) (s : State) : MarksFall s (advanceN k s) := by
  induction k generalizing s with
  | zero => exact .of_eq rfl
  | succ k ih =>
    unfold advanceN
    split
    · rename_i t ht
      refine MarksFall.trans ?_ (ih t)
      rcases advance1_cases ht with ⟨i, o, -, rfl⟩ | ⟨p, es, -, rfl⟩
      · have hmove : MarksFall s (moveOrder o (setQueue (s.disp.queue.eraseIdx i) s)) := .of_eq rfl
        exact hmove.trans (afterFreed_marksFall _ _)
      · have hleave : MarksFall s (setQueue es s) := .of_eq rfl
        exact hleave.trans (afterFreed_marksFall _ _)
    · exact .of_eq rfl

theorem closeEvent_marksFall (n : Nat) (s : State) : MarksFall s (closeEvent n s) :=
  ((afterFreed_marksFall n s).trans (advanceN_marksFall _ _)).trans (.of_eq (congrArg (·.spaceMarks) (settleWaits_disp _)))

/-! ### What a CANCL names -/

section
variable {p : Port} {ref : Byte}

theorem namesOrder_order (o : OrderEntry) : namesOrder p ref (.order o) = true ↔ o.port = p ∧ o.reference = ref := by
  simp [namesOrder]

theorem cancelNames_iff (x : Exchange) : cancelNames p ref x = true ↔ x.port = p ∧ x.reference = ref := by
  simp [cancelNames]

theorem isWork_of_namesOrder {e : Entry} (h : namesOrder p ref e = true) : isWork e = true := by
  cases e with
  | ann a => cases h
  | order o => rfl
  | fence q => cases h

theorem countP_namesOrder (q : List Entry) : (q.filter isWork).countP (namesOrder p ref) = q.countP (namesOrder p ref) := by
  rw [List.countP_filter]
  refine List.countP_congr fun e _ => ?_
  simp only [Bool.and_eq_true, and_iff_left_iff_imp]
  exact isWork_of_namesOrder

/-- A queue that holds no order named gets none by the Dispatcher's small steps. -/
theorem QueueSteps.unnamed {s t : State} (h : QueueSteps s t) (hs : ∀ e ∈ s.disp.queue, namesOrder p ref e = false) :
    ∀ e ∈ t.disp.queue, namesOrder p ref e = false := by
  intro e he
  by_contra hnamed
  have hname : namesOrder p ref e = true := by simpa using hnamed
  rw [hs e (h.work_mem he (isWork_of_namesOrder hname))] at hname
  cases hname

/-! ### Queued orders (R76) -/

theorem removeFirst_append {α : Type} {f : α → Bool} {ahead behind : List α} {x : α} (hahead : ∀ y ∈ ahead, f y = false)
    (hx : f x = true) : removeFirst f (ahead ++ x :: behind) = ahead ++ behind := by
  induction ahead with
  | nil => simp [removeFirst, hx]
  | cons y ys ih =>
    have hy : f y = false := hahead y List.mem_cons_self
    simp [removeFirst, hy, ih fun z hz => hahead z (List.mem_cons_of_mem _ hz)]

/-- R76: with an order named, the first of them leaves and is told; its place is offered and room is tested. -/
theorem cancelOne_first {s : State} (h : ∃ e ∈ s.disp.queue, namesOrder p ref e = true) :
    ∃ ahead o behind, s.disp.queue = ahead ++ .order o :: behind ∧ namesOrder p ref (.order o) = true
      ∧ cancelOne p ref s = afterFreed 1 (notify p (orderNotice o) (setQueue (ahead ++ behind) s)) := by
  obtain ⟨e, hfind⟩ := Option.isSome_iff_exists.1 (List.find?_isSome.2 h)
  obtain ⟨hname, ahead, behind, hsplit, hahead⟩ := List.find?_eq_some_iff_append.1 hfind
  cases e with
  | ann a => cases hname
  | fence q => cases hname
  | order o =>
    obtain ⟨hport, -⟩ := (namesOrder_order o).1 hname
    refine ⟨ahead, o, behind, hsplit, hname, ?_⟩
    have hremove : removeFirst (namesOrder p ref) s.disp.queue = ahead ++ behind := by
      rw [hsplit]
      exact removeFirst_append (fun y hy => by simpa using hahead y hy) hname
    simp only [cancelOne, hfind, hremove, noticeQueued, hport]

theorem cancelOne_none {s : State} (h : ¬ ∃ e ∈ s.disp.queue, namesOrder p ref e = true) : cancelOne p ref s = s := by
  have hfind : s.disp.queue.find? (namesOrder p ref) = none :=
    List.find?_eq_none.2 fun e he hname => h ⟨e, he, hname⟩
  simp only [cancelOne, hfind]

theorem cancelOne_steps (s : State) : QueueSteps s (cancelOne p ref s) := by
  by_cases h : ∃ e ∈ s.disp.queue, namesOrder p ref e = true
  · obtain ⟨ahead, o, behind, hsplit, -, heq⟩ := cancelOne_first h
    have hsub : (ahead ++ behind).Sublist s.disp.queue := hsplit ▸ (List.sublist_cons_self _ _).append_left ahead
    rw [heq]
    exact ((QueueStep.queue _ s (.of_sublist hsub)).one.trans (QueueStep.notice _ _ _).one).trans (afterFreed_steps _ _)
  · rw [cancelOne_none h]

theorem cancelOne_exch (s : State) : (cancelOne p ref s).exch = s.exch := by
  by_cases h : ∃ e ∈ s.disp.queue, namesOrder p ref e = true
  · obtain ⟨ahead, o, behind, -, -, heq⟩ := cancelOne_first h
    rw [heq, afterFreed_exch]
    rfl
  · rw [cancelOne_none h]

theorem cancelOne_marksFall (s : State) : MarksFall s (cancelOne p ref s) := by
  by_cases h : ∃ e ∈ s.disp.queue, namesOrder p ref e = true
  · obtain ⟨ahead, o, behind, -, -, heq⟩ := cancelOne_first h
    have hleaves : MarksFall s (notify p (orderNotice o) (setQueue (ahead ++ behind) s)) := .of_eq rfl
    rw [heq]
    exact hleaves.trans (afterFreed_marksFall _ _)
  · rw [cancelOne_none h]
    exact .of_eq rfl

theorem cancelQueued_steps (n : Nat) (s : State) : QueueSteps s (cancelQueued p ref n s) := by
  induction n generalizing s with
  | zero => exact QueueSteps.rfl'
  | succ n ih => exact (cancelOne_steps s).trans (ih _)

theorem cancelQueued_exch (n : Nat) (s : State) : (cancelQueued p ref n s).exch = s.exch := by
  induction n generalizing s with
  | zero => rfl
  | succ n ih => exact (ih _).trans (cancelOne_exch s)

theorem cancelQueued_marksFall (n : Nat) (s : State) : MarksFall s (cancelQueued p ref n s) := by
  induction n generalizing s with
  | zero => exact .of_eq rfl
  | succ n ih => exact (cancelOne_marksFall s).trans (ih _)

/-- R76: once as many orders as are named have been cancelled, none is left and each has been told. -/
theorem cancelQueued_ends {n : Nat} {s : State} (hn : s.disp.queue.countP (namesOrder p ref) = n) :
    (∀ e ∈ (cancelQueued p ref n s).disp.queue, namesOrder p ref e = false)
      ∧ ∀ o, Entry.order o ∈ s.disp.queue → namesOrder p ref (.order o) = true →
        HoldsNotice p { count := s.count, body := orderNotice o } (cancelQueued p ref n s) := by
  induction n generalizing s with
  | zero =>
    have hnone : ∀ e ∈ s.disp.queue, namesOrder p ref e = false := by simpa using List.countP_eq_zero.1 hn
    exact ⟨hnone, fun o ho hname => by rw [hnone _ ho] at hname; cases hname⟩
  | succ n ih =>
    obtain ⟨ahead, o, behind, hsplit, hname, heq⟩ :=
      cancelOne_first (List.countP_pos_iff.1 (by rw [hn]; exact Nat.succ_pos n))
    have hwork : (cancelOne p ref s).disp.queue.filter isWork = (ahead ++ behind).filter isWork := by
      rw [heq, afterFreed_work]
      rfl
    have hcount : (cancelOne p ref s).disp.queue.countP (namesOrder p ref) = n := by
      rw [hsplit, List.countP_append, List.countP_cons_of_pos hname] at hn
      rw [← countP_namesOrder, hwork, countP_namesOrder, List.countP_append]
      omega
    obtain ⟨hnone, htold⟩ := ih hcount
    refine ⟨hnone, fun o' ho' hname' => ?_⟩
    rw [hsplit, List.mem_append, List.mem_cons] at ho'
    by_cases hfirst : o' = o
    · have hnotice : HoldsNotice p { count := s.count, body := orderNotice o } (cancelOne p ref s) := by
        rw [heq]
        exact (notify_holdsNotice p (orderNotice o) (setQueue (ahead ++ behind) s)).steps (afterFreed_steps _ _)
      rw [hfirst]
      exact hnotice.steps (cancelQueued_steps n _)
    · have hrest : Entry.order o' ∈ (ahead ++ behind).filter isWork := by
        refine List.mem_filter.2 ⟨List.mem_append.2 (ho'.imp_right fun h => h.resolve_left fun h => ?_), rfl⟩
        exact hfirst (Entry.order.inj h)
      rw [← hwork] at hrest
      have hlater := htold o' (List.mem_filter.1 hrest).1 hname'
      rwa [(cancelOne_steps s).count] at hlater

/-- R72, R76: with no group due, the departure of the first order named leaves no QUEUE SPACE mark set, and each that was
set is told. -/
theorem cancelOne_makesRoom {s : State} (h : ∃ e ∈ s.disp.queue, namesOrder p ref e = true) (hlen : s.disp.queue.length ≤ 16)
    (hworks : s.disp.queue.countP isWork ≤ 12) (hdue : ∀ g, (s.group g).due = false) (q : Port) :
    (cancelOne p ref s).disp.spaceMarks.get q = false
      ∧ (s.disp.spaceMarks.get q = true →
        HoldsNotice q { count := s.count, body := .queueSpace } (cancelOne p ref s)) := by
  obtain ⟨ahead, o, behind, hsplit, hname, heq⟩ := cancelOne_first h
  have hroom : orderRoom (notify p (orderNotice o) (setQueue (ahead ++ behind) s)) = true := by
    rw [hsplit, List.length_append, List.length_cons] at hlen
    rw [hsplit, List.countP_append, List.countP_cons_of_pos (isWork_of_namesOrder hname)] at hworks
    refine (orderRoom_iff _).2 ⟨?_, ?_⟩
    · change (ahead ++ behind).countP isWork < 12
      rw [List.countP_append]
      omega
    · change (ahead ++ behind).length < 16
      rw [List.length_append]
      omega
  have hdue' : ∀ g, ((notify p (orderNotice o) (setQueue (ahead ++ behind) s)).group g).due = false := hdue
  rw [heq, afterFreed_of_no_due hdue' one_ne_zero]
  refine ⟨?_, fun hmark => ?_⟩
  · rw [queueSpace_disp hroom]
    cases q <;> rfl
  · exact holdsNotice_of_arrive ((queueSpace_port hroom q).trans (if_pos hmark))

/-! ### Live exchanges (R153, R155) -/

/-- R153: an exchange in SENDING is made cancel-pending; any other leaves the table, told. -/
theorem cancelExch_cases (x : Exchange) (s : State) :
    (x.state = .sending ∧ cancelExch x s = updExch x.tag (fun y => { y with cancelPending := true }) s)
      ∨ x.state ≠ .sending ∧ cancelExch x s = dropExch x .cancelled none none s := by
  unfold cancelExch
  split
  · rename_i hstate
    exact .inl ⟨hstate, rfl⟩
  all_goals
    rename_i hstate
    exact .inr ⟨by simp [hstate], rfl⟩

theorem cancelExch_disp (x : Exchange) (s : State) : (cancelExch x s).disp = s.disp := by
  rcases cancelExch_cases x s with ⟨-, h⟩ | ⟨-, h⟩ <;> rw [h] <;> rfl

/-- R153: what stands in the table once one exchange has been cancelled. -/
theorem mem_cancelExch_table {x y : Exchange} {s : State} (h : y ∈ (cancelExch x s).exch.table) :
    (y ∈ s.exch.table ∧ y.tag ≠ x.tag)
      ∨ x.state = .sending ∧ ∃ z ∈ s.exch.table, z.tag = x.tag ∧ y = { z with cancelPending := true } := by
  rcases cancelExch_cases x s with ⟨hsending, heq⟩ | ⟨-, heq⟩
  · rw [heq] at h
    obtain ⟨z, hz, rfl⟩ := List.mem_map.1 h
    by_cases htag : z.tag = x.tag
    · exact .inr ⟨hsending, z, hz, htag, if_pos htag⟩
    · rw [if_neg htag]
      exact .inl ⟨hz, htag⟩
  · rw [heq] at h
    obtain ⟨hmem, htag⟩ := List.mem_filter.1 h
    exact .inl ⟨hmem, by simpa using htag⟩

/-- R153: an exchange of another tag is left alone. -/
theorem cancelExch_table_of_ne {x y : Exchange} {s : State} (hy : y ∈ s.exch.table) (htag : y.tag ≠ x.tag) :
    y ∈ (cancelExch x s).exch.table := by
  rcases cancelExch_cases x s with ⟨-, heq⟩ | ⟨-, heq⟩
  · rw [heq]
    exact List.mem_map.2 ⟨y, hy, if_neg htag⟩
  · rw [heq]
    exact List.mem_filter.2 ⟨hy, by simpa using htag⟩

/-- R156: an exchange that ends so is told. -/
theorem cancelExch_tells {x : Exchange} (hstate : x.state ≠ .sending) (s : State) :
    HoldsNotice x.port { count := s.count, body := exchNotice x .cancelled none none } (cancelExch x s) := by
  rcases cancelExch_cases x s with ⟨hsending, -⟩ | ⟨-, heq⟩
  · exact absurd hsending hstate
  · rw [heq]
    exact notify_holdsNotice x.port _ s

/-- R73: where the queue holds no order named, what joins the table by moves is not named either. -/
theorem advanceN_unnamed (k : Nat) {s : State} (hq : ∀ e ∈ s.disp.queue, namesOrder p ref e = false) :
    ∃ more, (advanceN k s).exch.table = s.exch.table ++ more ∧ ∀ x ∈ more, cancelNames p ref x = false := by
  induction k generalizing s with
  | zero => exact ⟨[], (List.append_nil _).symm, by simp⟩
  | succ k ih =>
    unfold advanceN
    split
    · rename_i t ht
      obtain ⟨more, htable, hmore⟩ := ih ((advance1_steps ht).unnamed hq)
      rcases advance1_cases ht with ⟨i, o, ho, rfl⟩ | ⟨f, es, -, rfl⟩
      · have ho' : namesOrder p ref (.order o) = false := hq _ (List.mem_of_getElem? ho)
        rw [afterFreed_exch] at htable
        refine ⟨_ :: more, htable.trans (List.append_assoc _ [_] _), List.forall_mem_cons.2 ⟨ho', hmore⟩⟩
      · rw [afterFreed_exch] at htable
        exact ⟨more, htable, hmore⟩
    · exact ⟨[], (List.append_nil _).symm, by simp⟩

/-- R153, R155: one exchange is cancelled, ending whole, with the moves and fence departures it allows. -/
def cancelThen (s : State) (x : Exchange) : State := advanceAll (cancelExch x s)

theorem cancelThen_steps (s : State) (x : Exchange) : QueueSteps s (cancelThen s x) :=
  (cancelExch_steps x s).trans (advanceAll_steps _)

theorem cancelThen_marksFall (s : State) (x : Exchange) : MarksFall s (cancelThen s x) :=
  (MarksFall.of_eq (by rw [cancelExch_disp])).trans (advanceN_marksFall _ _)

theorem mem_cancelThen_of_mem {s : State} {x y : Exchange} (hy : y ∈ (cancelExch x s).exch.table) :
    y ∈ (cancelThen s x).exch.table := by
  obtain ⟨⟨more, htable, -⟩, -⟩ := advanceN_exchGrows (cancelExch x s).disp.queue.length (cancelExch x s)
  rw [cancelThen, advanceAll, htable]
  exact List.mem_append_left _ hy

theorem foldl_cancelThen_steps (xs : List Exchange) (s : State) : QueueSteps s (xs.foldl cancelThen s) :=
  QueueSteps.foldl cancelThen cancelThen_steps xs s

theorem foldl_cancelThen_marksFall (xs : List Exchange) (s : State) : MarksFall s (xs.foldl cancelThen s) := by
  induction xs generalizing s with
  | nil => exact .of_eq rfl
  | cons x xs ih => exact (cancelThen_marksFall s x).trans (ih _)

/-- An exchange whose tag is none of those cancelled stands. -/
theorem foldl_cancelThen_stands {xs : List Exchange} {s : State} {y : Exchange} (hy : y ∈ s.exch.table)
    (htag : ∀ x ∈ xs, y.tag ≠ x.tag) : y ∈ (xs.foldl cancelThen s).exch.table := by
  induction xs generalizing s with
  | nil => exact hy
  | cons x xs ih =>
    exact ih (mem_cancelThen_of_mem (cancelExch_table_of_ne hy (htag x List.mem_cons_self)))
      fun z hz => htag z (List.mem_cons_of_mem _ hz)

theorem foldl_cancelThen_tells {xs : List Exchange} {x : Exchange} (hx : x ∈ xs) (hstate : x.state ≠ .sending) (s : State) :
    HoldsNotice x.port { count := s.count, body := exchNotice x .cancelled none none } (xs.foldl cancelThen s) := by
  induction xs generalizing s with
  | nil => cases hx
  | cons y ys ih =>
    rcases List.mem_cons.1 hx with rfl | hx
    · exact ((cancelExch_tells hstate s).steps (advanceAll_steps _)).steps (foldl_cancelThen_steps ys _)
    · have hlater := ih hx (cancelThen s y)
      rwa [(cancelThen_steps s y).count] at hlater

/-- The exchange has been cancelled on the line: SENDING with cancel-pending set, to end with its frame (R153). -/
def CancelsOnLine (y : Exchange) : Prop := y.state = .sending ∧ y.cancelPending = true

/-- Every exchange named has been cancelled on the line, or is still to be cancelled: `xs` holds one of its tag and state. -/
def CancelledBut (p : Port) (ref : Byte) (xs : List Exchange) (s : State) : Prop :=
  ∀ y ∈ s.exch.table, cancelNames p ref y = true → CancelsOnLine y ∨ ∃ x ∈ xs, x.tag = y.tag ∧ x.state = y.state

theorem CancelledBut.cancelExch {x : Exchange} {xs : List Exchange} {s : State} (h : CancelledBut p ref (x :: xs) s) :
    CancelledBut p ref xs (cancelExch x s) := by
  intro y hy hname
  have hlater {z : Exchange} (hz : ∃ w ∈ x :: xs, w.tag = z.tag ∧ w.state = z.state)
      (hne : ¬ (x.tag = z.tag ∧ x.state = z.state)) : ∃ w ∈ xs, w.tag = z.tag ∧ w.state = z.state := by
    obtain ⟨w, hw, heq⟩ := hz
    rcases List.mem_cons.1 hw with rfl | hw
    · exact absurd heq hne
    · exact ⟨w, hw, heq⟩
  rcases mem_cancelExch_table hy with ⟨hmem, htag⟩ | ⟨hsending, z, hz, htag, rfl⟩
  · exact (h y hmem hname).imp_right fun hx => hlater hx fun hx => htag hx.1.symm
  · by_cases hstate : z.state = .sending
    · exact .inl ⟨hstate, rfl⟩
    · refine (h z hz hname).imp (fun hline => absurd hline.1 hstate) fun hx => hlater hx fun hx => ?_
      exact hstate (hx.2 ▸ hsending)

theorem CancelledBut.advanceN {xs : List Exchange} {s : State} (h : CancelledBut p ref xs s)
    (hq : ∀ e ∈ s.disp.queue, namesOrder p ref e = false) (k : Nat) : CancelledBut p ref xs (advanceN k s) := by
  obtain ⟨more, htable, hmore⟩ := advanceN_unnamed k hq
  intro y hy hname
  rw [htable] at hy
  rcases List.mem_append.1 hy with hy | hy
  · exact h y hy hname
  · rw [hmore y hy] at hname
    cases hname

theorem CancelledBut.foldl {xs : List Exchange} {s : State} (h : CancelledBut p ref xs s)
    (hq : ∀ e ∈ s.disp.queue, namesOrder p ref e = false) : CancelledBut p ref [] (xs.foldl cancelThen s) := by
  induction xs generalizing s with
  | nil => exact h
  | cons x xs ih =>
    have hq' := (cancelExch_steps x s).unnamed hq
    exact ih (h.cancelExch.advanceN hq' _) ((cancelThen_steps s x).unnamed hq)

/-! ### The whole request (R76) -/

/-- The queue once the orders named have left it, and the moves they allowed. -/
def queuedCancelled (p : Port) (ref : Byte) (s : State) : State :=
  advanceAll (cancelQueued p ref (s.disp.queue.countP (namesOrder p ref)) s)

/-- R76, R153: every order named has ended, or ends with its frame. -/
def ordersCancelled (p : Port) (ref : Byte) (s : State) : State :=
  (s.exch.table.filter (cancelNames p ref)).foldl cancelThen (queuedCancelled p ref s)

variable {s : State}

theorem queuedCancelled_steps : QueueSteps s (queuedCancelled p ref s) :=
  (cancelQueued_steps _ s).trans (advanceAll_steps _)

theorem ordersCancelled_steps : QueueSteps s (ordersCancelled p ref s) :=
  queuedCancelled_steps.trans (foldl_cancelThen_steps _ _)

theorem queuedCancelled_unnamed : ∀ e ∈ (queuedCancelled p ref s).disp.queue, namesOrder p ref e = false :=
  (advanceAll_steps _).unnamed (cancelQueued_ends rfl).1

/-- What the departures of queued orders moved into the table is not named. -/
theorem queuedCancelled_table :
    ∃ more, (queuedCancelled p ref s).exch.table = s.exch.table ++ more ∧ ∀ x ∈ more, cancelNames p ref x = false := by
  obtain ⟨more, htable, hmore⟩ := advanceN_unnamed
    (cancelQueued p ref (s.disp.queue.countP (namesOrder p ref)) s).disp.queue.length (cancelQueued_ends (s := s) rfl).1
  rw [cancelQueued_exch] at htable
  exact ⟨more, htable, hmore⟩

/-- The live exchanges a CANCL ends are those that stood in the table when it came. -/
theorem cancelLive_eq : cancelLive p ref (queuedCancelled p ref s) = ordersCancelled p ref s := by
  obtain ⟨more, htable, hmore⟩ := queuedCancelled_table (p := p) (ref := ref) (s := s)
  have hnone : more.filter (cancelNames p ref) = [] := by simpa using hmore
  rw [cancelLive, htable, List.filter_append, hnone, List.append_nil]
  rfl

theorem ordersCancelled_cancelledBut : CancelledBut p ref [] (ordersCancelled p ref s) := by
  refine CancelledBut.foldl (fun y hy hname => .inr ?_) queuedCancelled_unnamed
  obtain ⟨more, htable, hmore⟩ := queuedCancelled_table (p := p) (ref := ref) (s := s)
  rw [htable] at hy
  rcases List.mem_append.1 hy with hy | hy
  · exact ⟨y, List.mem_filter.2 ⟨hy, hname⟩, rfl, rfl⟩
  · rw [hmore y hy] at hname
    cases hname

/-- R76: an exchange that is not named stands, where no two live exchanges share a tag. -/
theorem ordersCancelled_stands (hnodup : (s.exch.table.map (·.tag)).Nodup) {x : Exchange} (hx : x ∈ s.exch.table)
    (hname : cancelNames p ref x = false) : x ∈ (ordersCancelled p ref s).exch.table := by
  obtain ⟨more, htable, -⟩ := queuedCancelled_table (p := p) (ref := ref) (s := s)
  refine foldl_cancelThen_stands (htable ▸ List.mem_append_left _ hx) fun y hy htag => ?_
  obtain ⟨hmem, hyname⟩ := List.mem_filter.1 hy
  obtain rfl : x = y := List.inj_on_of_nodup_map hnodup hx hmem htag
  rw [hname] at hyname
  cases hyname

theorem ordersCancelled_tells_order {o : OrderEntry} (ho : Entry.order o ∈ s.disp.queue)
    (hname : namesOrder p ref (.order o) = true) :
    HoldsNotice p { count := s.count, body := orderNotice o } (ordersCancelled p ref s) :=
  (((cancelQueued_ends rfl).2 o ho hname).steps (advanceAll_steps _)).steps (foldl_cancelThen_steps _ _)

theorem ordersCancelled_tells_exchange {x : Exchange} (hx : x ∈ s.exch.table) (hname : cancelNames p ref x = true)
    (hstate : x.state ≠ .sending) :
    HoldsNotice p { count := s.count, body := exchNotice x .cancelled none none } (ordersCancelled p ref s) := by
  have htold := foldl_cancelThen_tells (List.mem_filter.2 ⟨hx, hname⟩) hstate (queuedCancelled p ref s)
  rwa [queuedCancelled_steps.count, ((cancelNames_iff x).1 hname).1] at htold

/-- R72: with no group due, once a queued order has left no QUEUE SPACE mark is set, and each that was set is told. -/
theorem ordersCancelled_makesRoom (h : ∃ e ∈ s.disp.queue, namesOrder p ref e = true) (hlen : s.disp.queue.length ≤ 16)
    (hworks : s.disp.queue.countP isWork ≤ 12) (hdue : ∀ g, (s.group g).due = false) (q : Port) :
    (ordersCancelled p ref s).disp.spaceMarks.get q = false
      ∧ (s.disp.spaceMarks.get q = true →
        HoldsNotice q { count := s.count, body := .queueSpace } (ordersCancelled p ref s)) := by
  obtain ⟨hmark, htold⟩ := cancelOne_makesRoom h hlen hworks hdue q
  obtain ⟨n, hn⟩ : ∃ n, s.disp.queue.countP (namesOrder p ref) = n + 1 :=
    ⟨_, (Nat.succ_pred_eq_of_pos (List.countP_pos_iff.2 h)).symm⟩
  have heq : queuedCancelled p ref s = advanceAll (cancelQueued p ref n (cancelOne p ref s)) := by
    rw [queuedCancelled, hn]
    rfl
  have hsteps : QueueSteps (cancelOne p ref s) (ordersCancelled p ref s) := by
    rw [ordersCancelled, heq]
    exact ((cancelQueued_steps n _).trans (advanceAll_steps _)).trans (foldl_cancelThen_steps _ _)
  have hfall : MarksFall (cancelOne p ref s) (ordersCancelled p ref s) := by
    rw [ordersCancelled, heq]
    exact ((cancelQueued_marksFall n _).trans (advanceN_marksFall _ _)).trans (foldl_cancelThen_marksFall _ _)
  exact ⟨hfall q hmark, fun hset => (htold hset).steps hsteps⟩

end

/-! ### A fence that the last marked exchange held (R73, R75) -/

/-- R138: with no live exchange an order takes the counter's tag, and moves with no fence mark where no fence is held. -/
theorem moveOrder_exch_of_empty {o : OrderEntry} {s : State} (htable : s.exch.table = [])
    (hfence : s.disp.queue.any isFence = false) : (moveOrder o s).exch =
      { table := [newExchange s.exch.tagCounter o false s.conf.retryLimit], tagCounter := s.exch.tagCounter + 1
        ready := s.exch.ready ++ [s.exch.tagCounter] } := by
  have htag : freeTag 256 s.exch.tagCounter [] = s.exch.tagCounter := rfl
  simp only [moveOrder, State.setExch_exch, htable, hfence, htag, List.nil_append]

/-- R73, R75: with no live exchange and no group due, a fence at the head leaves and the order behind it moves. -/
theorem advanceAll_fence_order {s : State} {q : Port} {o : OrderEntry} (hq : s.disp.queue = [.fence q, .order o])
    (htable : s.exch.table = []) (hdue : ∀ g, (s.group g).due = false) :
    (advanceAll s).disp.queue = [] ∧ (advanceAll s).exch =
      { table := [newExchange s.exch.tagCounter o false s.conf.retryLimit], tagCounter := s.exch.tagCounter + 1
        ready := s.exch.ready ++ [s.exch.tagCounter] } := by
  have hdue₁ : ∀ g, ((setQueue [.order o] s).group g).due = false := hdue
  have hleaves : advance1 s = some (queueSpace (setQueue [.order o] s)) := by
    rw [← afterFreed_of_no_due hdue₁ one_ne_zero]
    exact advance1_fence hq (by simp [htable])
  generalize hu : queueSpace (setQueue [.order o] s) = u at hleaves
  have huqueue : u.disp.queue = [] ++ [.order o] := by rw [← hu, queueSpace_queue]; rfl
  have huexch : u.exch = s.exch := by rw [← hu, queueSpace_exch]; rfl
  have huconf : u.conf = s.conf := by rw [← hu, (queueSpace_steps _).frame.conf]; rfl
  have hugroups : u.groups = s.groups := by rw [← hu, queueSpace_groups]; rfl
  have hdue₂ : ∀ g, ((moveOrder o (setQueue [] u)).group g).due = false := fun g => by
    rw [show (moveOrder o (setQueue [] u)).group g = s.group g from congrArg (·.get g) hugroups]
    exact hdue g
  have hmoves : advance1 u = some (queueSpace (moveOrder o (setQueue [] u))) := by
    rw [← afterFreed_of_no_due hdue₂ one_ne_zero]
    exact advance1_order huqueue (by simp) (by simp) (by simp [huexch, htable])
  have hall : advanceAll s = queueSpace (moveOrder o (setQueue [] u)) := by
    rw [advanceAll, hq]
    exact (advanceN_succ hleaves 1).trans (advanceN_succ hmoves 0)
  rw [hall, queueSpace_queue, queueSpace_exch, moveOrder_exch_of_empty (huexch ▸ htable) rfl]
  exact ⟨rfl, by rw [← huconf, ← huexch]; rfl⟩

section
variable {p : Port} {ref : Byte} {s : State}

/-- R75, R76: the end of the last marked exchange, where it is all that a CANCL names, is followed by what it lets happen. -/
theorem ordersCancelled_of_last {q : Port} {x : Exchange} {o : OrderEntry} (hq : s.disp.queue = [.fence q, .order o])
    (htable : s.exch.table = [x]) (hmark : x.fenceMark = true) (hx : cancelNames p ref x = true)
    (ho : namesOrder p ref (.order o) = false) : ordersCancelled p ref s = cancelThen s x := by
  have hwaits : MovesInv s := by
    refine ⟨fun _ ahead o' behind hsplit _ => ?_, fun _ _ _ => ⟨x, by simp [htable], hmark⟩⟩
    cases ahead with
    | nil => simp [hq] at hsplit
    | cons e es =>
      obtain ⟨rfl, -⟩ := List.cons.inj (hq.symm.trans hsplit)
      exact ⟨_, List.mem_cons_self, rfl⟩
  have hcount : s.disp.queue.countP (namesOrder p ref) = 0 := by
    have hfence : namesOrder p ref (.fence q) = false := rfl
    simp [hq, ho, hfence]
  have hqueued : queuedCancelled p ref s = s := by
    rw [queuedCancelled, hcount]
    exact advanceAll_idle hwaits
  have hnamed : [x].filter (cancelNames p ref) = [x] := by simp [hx]
  rw [ordersCancelled, hqueued, htable, hnamed]
  rfl

/-- R155: the only live exchange, not on the line, leaves the table and the ready order. -/
theorem cancelExch_last {x : Exchange} (htable : s.exch.table = [x]) (hstate : x.state ≠ .sending) :
    (cancelExch x s).exch = { table := [], tagCounter := s.exch.tagCounter, ready := s.exch.ready.filter (· ≠ x.tag) }
      ∧ (cancelExch x s).groups = s.groups := by
  rcases cancelExch_cases x s with ⟨hsending, -⟩ | ⟨-, heq⟩
  · exact absurd hsending hstate
  · have hgone : [x].filter (fun y => decide (y.tag ≠ x.tag)) = [] := by simp
    rw [heq]
    refine ⟨?_, rfl⟩
    change ExchangeEngine.mk (s.exch.table.filter _) _ _ = _
    rw [htable, hgone]
    rfl

theorem exec_cancl_notFound (h : PortIdle p s) (hq : ∀ e ∈ s.disp.queue, namesOrder p ref e = false)
    (hx : ∀ x ∈ s.exch.table, cancelNames p ref x = false) :
    exec (.cancl p [ref]) s = .next (answer p .cancl .notFound none .empty id s) := by
  have hcount : (taken p s).disp.queue.countP (namesOrder p ref) = 0 := List.countP_eq_zero.2 fun e he => by simp [hq e he]
  have hany : (taken p s).exch.table.any (cancelNames p ref) = false := by simpa using hx
  change Host.Outcome.next (requestStep p .cancl [ref] (actCancl p [ref]) s) = _
  rw [requestStep_idle h (by simp), ← reply_taken_answer]
  simp only [actCancl, readByte, hcount, hany, and_self, if_true]

theorem exec_cancl_found (h : PortIdle p s)
    (hname : (∃ e ∈ s.disp.queue, namesOrder p ref e = true) ∨ ∃ x ∈ s.exch.table, cancelNames p ref x = true) :
    exec (.cancl p [ref]) s
      = .next (reply p .cancl .done .empty (closeEvent 0 (ordersCancelled p ref (taken p s)))) := by
  have hfound : ¬ ((taken p s).disp.queue.countP (namesOrder p ref) = 0
      ∧ (taken p s).exch.table.any (cancelNames p ref) = false) := by
    rintro ⟨hcount, hany⟩
    rcases hname with ⟨e, he, hne⟩ | ⟨x, hx, hnx⟩
    · exact List.countP_eq_zero.1 hcount e he hne
    · exact List.any_eq_false.1 hany x hx hnx
  change Host.Outcome.next (requestStep p .cancl [ref] (actCancl p [ref]) s) = _
  rw [requestStep_idle h (by simp), ← cancelLive_eq]
  simp only [actCancl, readByte, if_neg hfound]
  rfl

end

/-- Settles O38: each clause is what `ordersCancelled` does, kept by the end of the event and the answer. -/
theorem canclEndsTheNamedOrders : Obligations.CanclEndsTheNamedOrders := by
  intro p ref s h
  refine ⟨fun hq hx => exec_cancl_notFound h hq fun x hmem => ?_, fun hname => ?_⟩
  · simpa using mt (cancelNames_iff x).1 (hx x hmem)
  simp only [← cancelNames_iff] at hname ⊢
  have hunnamed : ∀ e ∈ (ordersCancelled p ref (taken p s)).disp.queue, namesOrder p ref e = false :=
    (foldl_cancelThen_steps _ _).unnamed queuedCancelled_unnamed
  have hholds {q : Port} {n : Notice} (hn : HoldsNotice q n (ordersCancelled p ref (taken p s))) :=
    (hn.steps (closeEvent_steps 0 _)).grow (reply_noticesGrow p q .cancl .done .empty _)
  refine ⟨_, exec_cancl_found h hname, reply_answered .., ?keeps, ?queue, ?table, fun hnodup x hx hother => ?others,
    fun hshed => ⟨fun o ho hport href => ?toldOrder, fun _ x hx hport href hstate => ?toldExchange⟩,
    fun hqueued hlen hworks hdue q => ?room, fun q x o hq htable hmark hport href hstate ho hdue => ?fence⟩
  case keeps =>
    exact ((taken_keeps p s).trans (ordersCancelled_steps.frame.trans (closeEvent_keeps 0 _))).trans (reply_keeps ..)
  case queue =>
    rw [reply_disp]
    exact (closeEvent_steps 0 _).unnamed hunnamed
  case table =>
    have hclosed : CancelledBut p ref [] (closeEvent 0 (ordersCancelled p ref (taken p s))) := by
      rw [closeEvent_zero_eq, CancelledBut, settleWaits_exch]
      exact ordersCancelled_cancelledBut.advanceN hunnamed _
    intro x hx hport href
    rw [reply_exch] at hx
    exact (hclosed x hx ((cancelNames_iff x).2 ⟨hport, href⟩)).resolve_right (by simp)
  case others =>
    obtain ⟨⟨more, htable, -⟩, -⟩ := closeEvent_exchGrows 0 (ordersCancelled p ref (taken p s))
    rw [reply_exch, htable]
    exact List.mem_append_left _ (ordersCancelled_stands (s := taken p s) hnodup hx (by simpa using hother))
  case toldOrder =>
    have hnotice := ordersCancelled_tells_order (s := taken p s) ho ((namesOrder_order o).2 ⟨hport, href⟩)
    subst href
    exact hholds hnotice hshed
  case toldExchange =>
    have hnotice := ordersCancelled_tells_exchange (s := taken p s) hx ((cancelNames_iff x).2 ⟨hport, href⟩) hstate
    subst href
    exact hholds hnotice hshed
  case room =>
    obtain ⟨hclear, htold⟩ := ordersCancelled_makesRoom (s := taken p s) hqueued hlen hworks hdue q
    rw [reply_disp]
    exact ⟨closeEvent_marksFall 0 _ q hclear, fun hset => hholds (htold hset)⟩
  case fence =>
    obtain ⟨hexch, hgroups⟩ := cancelExch_last (s := taken p s) htable hstate
    have hdue' : ∀ g, ((cancelExch x (taken p s)).group g).due = false := fun g => by
      rw [State.group, hgroups]
      exact hdue g
    obtain ⟨hempty, hmoved⟩ := advanceAll_fence_order (by rw [cancelExch_disp]; exact hq) (by rw [hexch]) hdue'
    have hidle : MovesInv (cancelThen (taken p s) x) := movesInv_of_noWork (by simp [cancelThen, hempty])
    obtain ⟨hdisp, hexch'⟩ := closeEvent_zero_same hidle
    rw [reply_disp, reply_exch,
      ordersCancelled_of_last (s := taken p s) hq htable hmark ((cancelNames_iff x).2 ⟨hport, href⟩) ho, hdisp, hexch',
      cancelThen, hempty, hmoved, hexch, (cancelExch_steps x (taken p s)).frame.conf]
    exact ⟨rfl, rfl⟩

end Sys2Proof.Machine
end
